-- ==== Sys2Proof/Word.lean ====
section
/-! DEFINITION. The one word type: every command, control register and limb is 32 bits (30_encoding.md R90,
20_memory.md R63). -/

namespace Sys2Proof

/-- A 32-bit word: a command word, a control register, a limb of a big register. -/
abbrev Word := BitVec 32

end Sys2Proof
end

