-- ==== Sys2Proof/Config.lean ====
section
/-! DEFINITION. What an implementation fixes (00_scope.md R6) at the spec's defaults, and the free values: what the spec
leaves unspecified, as constants without a body. -/

namespace Sys2Proof

/-- Words per big register (R6). DESIGN CHOICE (log 1): the spec's default; unsafe for an engine built with another value. -/
abbrev Config.LIMBS : Nat := 512

/-- Number of big registers (R6). DESIGN CHOICE (log 1): the spec's default; unsafe for an engine built with another value. -/
abbrev Config.NREG : Nat := 16

/-- Bits per big register, `W = 32 * LIMBS` (R6). Irreducible, so that no proof meets the number `2 ^ 16384` unasked. -/
@[irreducible] def Config.W : Nat := 32 * Config.LIMBS

/-- The values the parameter `RF_BASE` may have, the byte offset of limb 0 of `x0` in the host window (R6): a multiple of 4 above
the control registers, which end at 0x13 (20_memory.md R61). -/
abbrev Config.RfBase : Type := { n : Nat // n % 4 = 0 ∧ 0x0014 ≤ n }

/-- The spec's default of `RF_BASE` (R6). -/
def Config.rfBaseDefault : Config.RfBase := ⟨0x8000, by decide⟩

/-- Interface version (R1, R6): fixed. -/
abbrev Config.VERSION : Nat := 1

/-- The two values the open parameter `LUCAS_D_FIRST` may have (R6, 42_primality.md R163). -/
inductive Config.LucasFirst where
  | minusThree
  | five
  deriving DecidableEq, Repr

/-- The first discriminant the Lucas test tries (R163). -/
def Config.lucasD : Config.LucasFirst → Int
  | .minusThree => -3
  | .five => 5

/-- FREE VALUE (log 2, 4): what a big register holds whose contents the spec calls unspecified (10_state.md R23, R45; U1,
U3). The argument numbers the occasion; nothing is known of the values, in particular not that they are zero. -/
opaque Config.freeBig : Nat → BitVec Config.W

/-- FREE VALUE (log 3): what `CUR` holds after a hardware reset (10_state.md R30, R44; U2). -/
opaque Config.freeWord : Nat → Word

end Sys2Proof
end

