-- ==== Sys2Proof/Syntax.lean ====
section
/-! DEFINITION. The nine commands as data: one constructor per row of spec/opcode_table.json (30_encoding.md R92). -/

namespace Sys2Proof

/-- The number of a big register. Rule R93 (2), "every register field is < NREG", holds of the type. -/
abbrev Reg := Fin Config.NREG

/-- The commands, operands in the order of the assembler syntax (R96). -/
inductive Instr where
  /-- `x[rd] <- x[rs1] ^ x[rs2] mod x[rs3]` (40_modexp.md R120). -/
  | modexp (rd rs1 rs2 rs3 : Reg)
  /-- The same with the message range check (R125). -/
  | rsaep (rd rs1 rs2 rs3 : Reg)
  /-- Montgomery reduction of `x[rs1]` modulo `x[rs3]` (41_montgomery.md R140). -/
  | montred (rd rs1 rs3 : Reg)
  /-- One Garner step: `rd` = m, `rs1` = R, `rs2` = m_i, `rs3` = r_i, `rs4` = t_i (44_crt.md R200). -/
  | crtstep (rd rs1 rs2 rs3 rs4 : Reg)
  /-- One Miller-Rabin round on `x[rs1]` with the witness `x[rs2]` (42_primality.md R150). -/
  | mrround (rs1 rs2 : Reg)
  /-- The Miller-Rabin test on `x[rs1]`, `imm12` rounds (R155). -/
  | mrtest (rs1 : Reg) (imm12 : BitVec 12)
  /-- The Lucas test on `x[rs1]` (R160). -/
  | lucas (rs1 : Reg)
  /-- The Jacobi symbol of `x[rs1]`, negated when `sa`, over `x[rs3]` (43_jacobi.md R183). -/
  | jacobi (rs1 rs3 : Reg) (sa : Bool)
  /-- The perfect-square check on `x[rs1]` (R187). -/
  | issqr (rs1 : Reg)
  deriving DecidableEq, Repr

end Sys2Proof
end

