-- ==== Sys2Proof/WellFormed.lean ====
section
/-! DEFINITION. Which terms of `Instr` a command word can stand for (30_encoding.md R93). Register numbers below NREG (2)
and the width of `imm12` are facts of the types; what is left is (3), CRTSTEP's two destinations. -/

namespace Sys2Proof

/-- A term some word decodes to: for CRTSTEP `rd ≠ rs1` (R93 (3)); every other term is well formed. -/
def Instr.wellFormed : Instr → Bool
  | .modexp _ _ _ _ => true
  | .rsaep _ _ _ _ => true
  | .montred _ _ _ => true
  | .crtstep rd rs1 _ _ _ => decide (rd ≠ rs1)
  | .mrround _ _ => true
  | .mrtest _ _ => true
  | .lucas _ => true
  | .jacobi _ _ _ => true
  | .issqr _ => true

/-- The big registers the command's rule names as destinations (10_state.md R22, R45). -/
def Instr.dests : Instr → List Reg
  | .modexp rd _ _ _ => [rd]
  | .rsaep rd _ _ _ => [rd]
  | .montred rd _ _ => [rd]
  | .crtstep rd rs1 _ _ _ => [rd, rs1]
  | .mrround _ _ => []
  | .mrtest _ _ => []
  | .lucas _ => []
  | .jacobi _ _ _ => []
  | .issqr _ => []

/-- The big registers the command's rule reads (10_state.md R22): its source fields, and for CRTSTEP its two in-and-out fields too
(44_crt.md R200). -/
def Instr.sources : Instr → List Reg
  | .modexp _ rs1 rs2 rs3 => [rs1, rs2, rs3]
  | .rsaep _ rs1 rs2 rs3 => [rs1, rs2, rs3]
  | .montred _ rs1 rs3 => [rs1, rs3]
  | .crtstep rd rs1 rs2 rs3 rs4 => [rd, rs1, rs2, rs3, rs4]
  | .mrround rs1 rs2 => [rs1, rs2]
  | .mrtest rs1 _ => [rs1]
  | .lucas rs1 => [rs1]
  | .jacobi rs1 rs3 _ => [rs1, rs3]
  | .issqr rs1 => [rs1]

end Sys2Proof
end

