-- ==== Sys2Proof/Decode.lean ====
section
/-! DEFINITION. Decoding a command word, total, rejecting by name (30_encoding.md R90 to R95), and the encoder, both written
from the formats of R90 and the table of R92. -/

namespace Sys2Proof

/-- Why a word is illegal (R93, R94). Each of them raises the one fault `IllegalCommand`. -/
inductive DecodeError where
  /-- The opcode is none of the nine. -/
  | unknownOpcode
  /-- A field the command does not use is not zero. -/
  | unusedField
  /-- A register field is not below NREG. -/
  | badRegister
  /-- CRTSTEP with `rd = rs1`. -/
  | sameDestination
  deriving DecidableEq, Repr

/-- The seven fields of format R (R90). In format I `rs2` is the zero field and `rs3 ## rs4 ## fl` is `imm12`. -/
structure Fields where
  op : BitVec 8
  rd : BitVec 4
  rs1 : BitVec 4
  rs2 : BitVec 4
  rs3 : BitVec 4
  rs4 : BitVec 4
  fl : BitVec 4
  deriving DecidableEq, Repr

/-- The fields of a word, bit positions of R90. -/
def fieldsOf (c : Word) : Fields :=
  { op := c.extractLsb' 24 8, rd := c.extractLsb' 20 4, rs1 := c.extractLsb' 16 4, rs2 := c.extractLsb' 12 4,
    rs3 := c.extractLsb' 8 4, rs4 := c.extractLsb' 4 4, fl := c.extractLsb' 0 4 }

/-- The word with the given fields, bit 31 first. -/
def packFields (f : Fields) : Word :=
  f.op ++ f.rd ++ f.rs1 ++ f.rs2 ++ f.rs3 ++ f.rs4 ++ f.fl

/-- The immediate of format I, bits 11:0 (R90, R91). -/
def immField (f : Fields) : BitVec 12 :=
  f.rs3 ++ f.rs4 ++ f.fl

/-- A register field as a register number (R93 (2)). -/
def regOf (b : BitVec 4) : Except DecodeError Reg :=
  if h : b.toNat < Config.NREG then .ok ⟨b.toNat, h⟩ else .error .badRegister

/-- A register number as a register field. -/
def regBits (r : Reg) : BitVec 4 :=
  BitVec.ofNat 4 r.val

/-- Reject unless the fields the command does not use are zero (R93 (1)). -/
def ifUnusedZero (unusedZero : Bool) (i : Except DecodeError Instr) : Except DecodeError Instr :=
  if unusedZero then i else .error .unusedField

/-- MODEXP (R92): `rs4` and `fl` unused. -/
def decodeModexp (f : Fields) : Except DecodeError Instr :=
  ifUnusedZero (f.rs4 == 0 && f.fl == 0) do
    return .modexp (← regOf f.rd) (← regOf f.rs1) (← regOf f.rs2) (← regOf f.rs3)

/-- RSAEP (R92): `rs4` and `fl` unused. -/
def decodeRsaep (f : Fields) : Except DecodeError Instr :=
  ifUnusedZero (f.rs4 == 0 && f.fl == 0) do
    return .rsaep (← regOf f.rd) (← regOf f.rs1) (← regOf f.rs2) (← regOf f.rs3)

/-- MONTRED (R92): `rs2`, `rs4` and `fl` unused. -/
def decodeMontred (f : Fields) : Except DecodeError Instr :=
  ifUnusedZero (f.rs2 == 0 && f.rs4 == 0 && f.fl == 0) do
    return .montred (← regOf f.rd) (← regOf f.rs1) (← regOf f.rs3)

/-- CRTSTEP (R92): `fl` unused, and the two destinations differ (R93 (3)). -/
def decodeCrtstep (f : Fields) : Except DecodeError Instr :=
  ifUnusedZero (f.fl == 0)
    (if f.rd = f.rs1 then .error .sameDestination
     else do
      return .crtstep (← regOf f.rd) (← regOf f.rs1) (← regOf f.rs2) (← regOf f.rs3) (← regOf f.rs4))

/-- MRROUND (R92): `rd`, `rs3`, `rs4` and `fl` unused. -/
def decodeMrround (f : Fields) : Except DecodeError Instr :=
  ifUnusedZero (f.rd == 0 && f.rs3 == 0 && f.rs4 == 0 && f.fl == 0) do
    return .mrround (← regOf f.rs1) (← regOf f.rs2)

/-- MRTEST (R92): format I, `rd` and the zero field unused. -/
def decodeMrtest (f : Fields) : Except DecodeError Instr :=
  ifUnusedZero (f.rd == 0 && f.rs2 == 0) do
    return .mrtest (← regOf f.rs1) (immField f)

/-- LUCAS (R92): only `rs1` used. -/
def decodeLucas (f : Fields) : Except DecodeError Instr :=
  ifUnusedZero (f.rd == 0 && f.rs2 == 0 && f.rs3 == 0 && f.rs4 == 0 && f.fl == 0) do
    return .lucas (← regOf f.rs1)

/-- JACOBI (R92): `rs1`, `rs3` and `fl[0]` used. -/
def decodeJacobi (f : Fields) : Except DecodeError Instr :=
  ifUnusedZero (f.rd == 0 && f.rs2 == 0 && f.rs4 == 0 && f.fl.extractLsb' 1 3 == 0) do
    return .jacobi (← regOf f.rs1) (← regOf f.rs3) (f.fl.getLsbD 0)

/-- ISSQR (R92): only `rs1` used. -/
def decodeIssqr (f : Fields) : Except DecodeError Instr :=
  ifUnusedZero (f.rd == 0 && f.rs2 == 0 && f.rs3 == 0 && f.rs4 == 0 && f.fl == 0) do
    return .issqr (← regOf f.rs1)

/-- The opcode map of R92 on the seven fields; every other opcode is illegal (R94). -/
def decodeFields (f : Fields) : Except DecodeError Instr :=
  if f.op = 0x01 then decodeModexp f
  else if f.op = 0x02 then decodeRsaep f
  else if f.op = 0x03 then decodeMontred f
  else if f.op = 0x04 then decodeCrtstep f
  else if f.op = 0x10 then decodeMrround f
  else if f.op = 0x11 then decodeMrtest f
  else if f.op = 0x12 then decodeLucas f
  else if f.op = 0x13 then decodeJacobi f
  else if f.op = 0x14 then decodeIssqr f
  else .error .unknownOpcode

/-- Decoding (R93): a total function from words to a command or a named reason why the word is illegal. -/
def decode (c : Word) : Except DecodeError Instr :=
  decodeFields (fieldsOf c)

/-- The fields a command is written with; unused fields are zero (R90, R92). -/
def Instr.fields : Instr → Fields
  | .modexp rd rs1 rs2 rs3 => ⟨0x01, regBits rd, regBits rs1, regBits rs2, regBits rs3, 0, 0⟩
  | .rsaep rd rs1 rs2 rs3 => ⟨0x02, regBits rd, regBits rs1, regBits rs2, regBits rs3, 0, 0⟩
  | .montred rd rs1 rs3 => ⟨0x03, regBits rd, regBits rs1, 0, regBits rs3, 0, 0⟩
  | .crtstep rd rs1 rs2 rs3 rs4 => ⟨0x04, regBits rd, regBits rs1, regBits rs2, regBits rs3, regBits rs4, 0⟩
  | .mrround rs1 rs2 => ⟨0x10, 0, regBits rs1, regBits rs2, 0, 0, 0⟩
  | .mrtest rs1 imm => ⟨0x11, 0, regBits rs1, 0, imm.extractLsb' 8 4, imm.extractLsb' 4 4, imm.extractLsb' 0 4⟩
  | .lucas rs1 => ⟨0x12, 0, regBits rs1, 0, 0, 0, 0⟩
  | .jacobi rs1 rs3 sa => ⟨0x13, 0, regBits rs1, 0, regBits rs3, 0, (BitVec.ofBool sa).setWidth 4⟩
  | .issqr rs1 => ⟨0x14, 0, regBits rs1, 0, 0, 0, 0⟩

/-- The command word of an instruction (R92). -/
def encode (i : Instr) : Word :=
  packFields i.fields

/-- The fixed bits of a command's row in R92: `match`. -/
def Instr.matchBits : Instr → Word
  | .modexp _ _ _ _ => 0x01000000
  | .rsaep _ _ _ _ => 0x02000000
  | .montred _ _ _ => 0x03000000
  | .crtstep _ _ _ _ _ => 0x04000000
  | .mrround _ _ => 0x10000000
  | .mrtest _ _ => 0x11000000
  | .lucas _ => 0x12000000
  | .jacobi _ _ _ => 0x13000000
  | .issqr _ => 0x14000000

/-- Which bits are fixed in a command's row in R92: `mask`. -/
def Instr.maskBits : Instr → Word
  | .modexp _ _ _ _ => 0xFF0000FF
  | .rsaep _ _ _ _ => 0xFF0000FF
  | .montred _ _ _ => 0xFF00F0FF
  | .crtstep _ _ _ _ _ => 0xFF00000F
  | .mrround _ _ => 0xFFF00FFF
  | .mrtest _ _ => 0xFFF0F000
  | .lucas _ => 0xFFF0FFFF
  | .jacobi _ _ _ => 0xFFF0F0FE
  | .issqr _ => 0xFFF0FFFF

/-- The instruction the decoder reads from a word numbered as spec/opcode_table.json numbers it: every command is one 32-bit
word (R90), bits above `nbits` being zero. -/
def decodeTableWord (nbits w : Nat) : Option Instr :=
  match decode (BitVec.ofNat 32 (w % 2 ^ nbits)) with
  | .ok i => some i
  | .error _ => none

end Sys2Proof
end

