-- ==== Sys2Proof/Machine/State.lean ====
section
/-! DEFINITION. The machine's state as plain data (10_state.md R20 to R45), the other agents' data, the outcomes' reason types,
and the state after a hardware reset (R44). -/

namespace Sys2Proof.Machine

/-- The four faults of the engine (60_exceptions.md R211). Raising one is a NEXT state (R213), never a stop. -/
inductive EngineFault where
  /-- The word in `CUR` does not decode. -/
  | illegalCommand
  /-- An operand is outside the command's domain. -/
  | operandRange
  /-- RSAEP with `m >= n`. -/
  | messageOutOfRange
  /-- CRTSTEP with a result of more than `W` bits. -/
  | resultOverflow
  deriving DecidableEq, Repr

/-- What the host window answers to an access (00_scope.md R12, 20_memory.md R60). -/
inductive BusAnswer where
  /-- The word a read returns. -/
  | data (w : Word)
  /-- A write was performed. -/
  | written
  /-- The access was refused; nothing changed. -/
  | busError
  deriving DecidableEq, Repr

/-- One entry of the environment's program: what the agents outside the engine do, in their order (20_memory.md R72). The
pseudo-instructions `ISSUE`, `CLRERR`, `CLRDONE`, `SRST` of R97 are writes (Machine/Env.lean). -/
inductive EnvOp where
  /-- `MemRead(addr, size)` by the host. -/
  | read (addr size : Nat)
  /-- `MemWrite(addr, size, v)` by the host. -/
  | write (addr size : Nat) (v : Word)
  /-- `LDR xi, v`: one entry for its LIMBS limb writes, each a step of its own (20_memory.md R68; log 9). -/
  | ldr (i : Reg) (v : BitVec Config.W)
  /-- `RDR xi`: one entry for its LIMBS limb reads, each a step of its own (R68; log 9). -/
  | rdr (i : Reg)
  /-- `WAIT`: poll `STATUS` until `BUSY = 0` (log 10). -/
  | wait
  /-- `BERR label`: branch of the host if the last `WAIT` saw `ERR`. -/
  | berr (label : Nat)
  /-- `BV label`: branch of the host if the last `WAIT` saw `V = 1`. -/
  | bv (label : Nat)
  /-- `BNV label`: branch of the host if the last `WAIT` saw `V = 0`. -/
  | bnv (label : Nat)
  /-- The host does nothing; the engine has its turn (log 8). -/
  | engine
  /-- The random source has one more answer ready (60_exceptions.md R230; log 6). -/
  | supply (raw : Nat)
  /-- The platform resets the engine (70_reset_and_hazards.md R250; log 13). -/
  | hardReset
  deriving DecidableEq, Repr

/-- Reasons to stop with a fault: NONE. The engine's own faults are latched in a next state (R213), a refused host access is
answered `BusError` in a next state (R218), so no step of this machine stops (log 21). -/
inductive Fault where
  deriving DecidableEq, Repr

/-- Reasons to refuse an instruction. -/
inductive Refusal where
  /-- Raised only by an arm of `exec` whose instruction has no meaning yet; safe (the model says nothing of it). -/
  | notModelled (mnemonic : String)
  deriving DecidableEq, Repr

/-- The whole state: the engine's (R20, R42), then what the model holds for the random source, the parameters and the
host. -/
structure State where
  /-- The big registers `x0 .. x15` (R21). -/
  big : Vector (BitVec Config.W) Config.NREG
  /-- `CUR`, the command word in execution (R30). -/
  cur : Word
  /-- `STATUS.BUSY` (R33). -/
  busy : Bool
  /-- `STATUS.DONE` (R33). -/
  done : Bool
  /-- `STATUS.ERR`, the fault latch (R33). -/
  err : Bool
  /-- `STATUS.OVR` (R33). -/
  ovr : Bool
  /-- `STATUS.V`, the verdict (R33). -/
  v : Bool
  /-- `STATUS.JAC`, the Jacobi field (R33). -/
  jac : BitVec 2
  /-- `STATUS.ECODE`, the code of the latched fault (R33). -/
  ecode : BitVec 8
  /-- `ECMD`, the faulting command word (R34). -/
  ecmd : Word
  /-- `CTRL.IE_DONE` (R34). -/
  ieDone : Bool
  /-- `CTRL.IE_ERR` (R34). -/
  ieErr : Bool
  /-- Rounds the MRTEST in execution has passed, their draws being answered (R42 (b); log 7). -/
  mrPassed : Nat
  /-- The coming answers of the random source, raw (60_exceptions.md R230; log 6). -/
  source : List Nat
  /-- The open parameter `LUCAS_D_FIRST` (00_scope.md R6; log 5). No step writes it. -/
  lucasFirst : Config.LucasFirst
  /-- The parameter `RF_BASE` (00_scope.md R6; log 5). No step writes it. -/
  rfBase : Config.RfBase
  /-- How many free values have been used up (log 4). -/
  fresh : Nat
  /-- The environment's program (10_state.md R31: the host holds the program; log 8). -/
  env : List EnvOp
  /-- The environment's index into it (R31). -/
  epc : Nat
  /-- The window's last answer to the host (log 12). -/
  answer : Option BusAnswer
  /-- The status word of the host's last `WAIT` (30_encoding.md R97; log 12). -/
  polled : Word
  /-- Which limb the host's LDR or RDR accesses next (30_encoding.md R97; log 9). -/
  limb : Fin Config.LIMBS
  /-- What the host's last RDR has added up (R97; log 9). -/
  gathered : Nat
  deriving DecidableEq, Repr

/-- The state right after a hardware reset (10_state.md R44, 70_reset_and_hazards.md R250): status, ECMD and CTRL zero, the
big registers and CUR unspecified (free values), nothing in execution. The other agents' fields: log 5, 6, 8, 9, 12. -/
def State.reset : State where
  big := Vector.ofFn fun i => Config.freeBig i.val
  cur := Config.freeWord 0
  busy := false
  done := false
  err := false
  ovr := false
  v := false
  jac := 0
  ecode := 0
  ecmd := 0
  ieDone := false
  ieErr := false
  mrPassed := 0
  source := []
  lucasFirst := .minusThree
  rfBase := Config.rfBaseDefault
  fresh := Config.NREG
  env := []
  epc := 0
  answer := none
  polled := 0
  limb := 0
  gathered := 0

end Sys2Proof.Machine
end

