-- ==== Sys2Proof/Machine/Flags.lean ====
section
/-! DEFINITION. The control registers as the host reads them, the fault codes, the Jacobi field and the interrupt line
(10_state.md R33 to R35; 60_exceptions.md R211, R220). -/

namespace Sys2Proof.Machine

/-- The word a read of `STATUS` returns (R33): bit 0 BUSY, 1 DONE, 2 ERR, 3 OVR, 4 V, 6:5 JAC, 15:8 ECODE, the rest 0. -/
def State.statusWord (s : State) : Word :=
  0#16 ++ s.ecode ++ 0#1 ++ s.jac ++ BitVec.ofBool s.v ++ BitVec.ofBool s.ovr ++ BitVec.ofBool s.err
    ++ BitVec.ofBool s.done ++ BitVec.ofBool s.busy

/-- The word a read of `CTRL` returns (R34): bit 0 IE_DONE, bit 1 IE_ERR, the rest 0. -/
def State.ctrlWord (s : State) : Word :=
  0#30 ++ BitVec.ofBool s.ieErr ++ BitVec.ofBool s.ieDone

/-- The constant `ID` (R35): bits 7:0 NREG, 23:8 LIMBS, 31:24 VERSION. -/
def idWord : Word :=
  BitVec.ofNat 8 Config.VERSION ++ BitVec.ofNat 16 Config.LIMBS ++ BitVec.ofNat 8 Config.NREG

/-- `code(F)` (60_exceptions.md R211). -/
def faultCode : EngineFault → BitVec 8
  | .illegalCommand => 1
  | .operandRange => 2
  | .messageOutOfRange => 3
  | .resultOverflow => 4

/-- The `JAC` field of a Jacobi symbol, two's complement in two bits (43_jacobi.md R183; 00_scope.md R10). -/
def jacField (j : Int) : BitVec 2 :=
  if j = 0 then 0b00 else if j = 1 then 0b01 else 0b11

/-- The interrupt line (60_exceptions.md R220): a level, a function of four bits. -/
def State.irq (s : State) : Bool :=
  (s.done && s.ieDone) || (s.err && s.ieErr)

/-- A host branch condition of 30_encoding.md R97, on the status word of the last `WAIT`. -/
def polledErr (w : Word) : Bool :=
  w.getLsbD 2

/-- Bit 4 of the status word of the last `WAIT` (R97). -/
def polledV (w : Word) : Bool :=
  w.getLsbD 4

end Sys2Proof.Machine
end

