-- ==== Sys2Proof/Machine/Operands.lean ====
section
/-! DEFINITION. The operand forms: a big register read as a natural, JACOBI's signed operand, MRTEST's immediate
(00_scope.md R8, R11; 30_encoding.md R91), and the limbs of a big register (20_memory.md R62). -/

namespace Sys2Proof.Machine

/-- The contents of big register `i`, all `W` bits (10_state.md R21). -/
def State.bigReg (s : State) (i : Reg) : BitVec Config.W :=
  s.big[i.val]

/-- `x[i]`, the big register as a natural below `2 ^ W` (00_scope.md R11). -/
def State.x (s : State) (i : Reg) : Nat :=
  (s.bigReg i).toNat

/-- JACOBI's first operand: `x[rs1]`, negated when `sa` (43_jacobi.md R183). -/
def State.signedX (s : State) (i : Reg) (sa : Bool) : Int :=
  if sa then -(s.x i : Int) else (s.x i : Int)

/-- MRTEST's `rounds = zext_12(CUR[11:0])` (30_encoding.md R91). -/
def roundsOf (imm12 : BitVec 12) : Nat :=
  imm12.toNat

/-- Limb `j` of a big register: bits `32*j+31 .. 32*j` (20_memory.md R62). -/
def limbOf (r : BitVec Config.W) (j : Fin Config.LIMBS) : Word :=
  r.extractLsb' (32 * j.val) 32

/-- The big register with limb `j` replaced (20_memory.md R64). -/
def withLimb (r : BitVec Config.W) (j : Fin Config.LIMBS) (w : Word) : BitVec Config.W :=
  (r &&& ~~~((BitVec.allOnes 32).setWidth Config.W <<< (32 * j.val))) ||| (w.setWidth Config.W <<< (32 * j.val))

end Sys2Proof.Machine
end

