-- ==== Sys2Proof/Machine/Ops.lean ====
section
/-! DEFINITION. The shared operations: writing a big register, accepting a command, completing it, taking a fault and leaving
it, the two resets. -/

namespace Sys2Proof.Machine

/-- `x[i] <- r` (00_scope.md R11). -/
def State.setBig (s : State) (i : Reg) (r : BitVec Config.W) : State :=
  { s with big := s.big.set i.val r }

/-- `x[i] <- n` for a natural `n`, which the rules keep below `2 ^ W` (R11). -/
def State.setX (s : State) (i : Reg) (n : Nat) : State :=
  s.setBig i (BitVec.ofNat Config.W n)

/-- The accept step (10_state.md R37): `CUR <- c; BUSY <- 1; DONE <- 0`, no round of it passed yet. -/
def State.accept (s : State) (c : Word) : State :=
  { s with cur := c, busy := true, done := false, mrPassed := 0 }

/-- What a command's rule writes (10_state.md R22, R39). -/
inductive Effect where
  /-- `x[rd] <- n`. -/
  | writeX (rd : Reg) (n : Nat)
  /-- CRTSTEP's two writes `x[rd] <- m`, `x[rs1] <- r`. -/
  | writeTwo (rd : Reg) (m : Nat) (rs1 : Reg) (r : Nat)
  /-- `V <- b`. -/
  | setV (b : Bool)
  /-- `JAC <- j`. -/
  | setJac (j : BitVec 2)
  deriving DecidableEq, Repr

/-- Perform a rule's writes (R36). -/
def State.apply (s : State) : Effect → State
  | .writeX rd n => s.setX rd n
  | .writeTwo rd m rs1 r => (s.setX rd m).setX rs1 r
  | .setV b => { s with v := b }
  | .setJac j => { s with jac := j }

/-- TAKING A FAULT (60_exceptions.md R213): `ERR <- 1; ECODE <- code(F); ECMD <- CUR; BUSY <- 0`, nothing else (R214). -/
def State.raiseFault (s : State) (f : EngineFault) : State :=
  { s with err := true, ecode := faultCode f, ecmd := s.cur, busy := false }

/-- LEAVING A FAULT (60_exceptions.md R216; 10_state.md R33): `ERR <- 0; ECODE <- 0; ECMD <- 0`; nothing is restored. -/
def State.clearFault (s : State) : State :=
  { s with err := false, ecode := 0, ecmd := 0 }

/-- Completion without fault after the rule's writes (R36): `BUSY <- 0; DONE <- 1`. -/
def State.complete (s : State) : State :=
  { s with busy := false, done := true }

/-- The completion step once the rule is evaluated (10_state.md R36): a fault is latched, otherwise the writes are performed. -/
def State.finish (s : State) : Except EngineFault Effect → State
  | .error f => s.raiseFault f
  | .ok e => (s.apply e).complete

/-- `x[i]` becomes unspecified (10_state.md R45): it takes the next free value. -/
def State.forget (s : State) (i : Reg) : State :=
  { s.setBig i (Config.freeBig s.fresh) with fresh := s.fresh + 1 }

/-- Every register of the list becomes unspecified. -/
def State.forgetAll (s : State) : List Reg → State
  | [] => s
  | i :: is => (s.forget i).forgetAll is

/-- The destinations of the word in `CUR`; an illegal word names none (10_state.md R45; log 23). -/
def State.curDests (s : State) : List Reg :=
  match decode s.cur with
  | .ok i => i.dests
  | .error _ => []

/-- All fields of STATUS, ECMD and CTRL at their reset values, no draw pending (10_state.md R44, R45). -/
def State.resetControl (s : State) : State :=
  { s with busy := false, done := false, err := false, ovr := false, v := false, jac := 0, ecode := 0, ecmd := 0,
           ieDone := false, ieErr := false, mrPassed := 0 }

/-- The soft reset (10_state.md R45): the destinations of a command in execution become unspecified, the control state takes
its reset values, the draw an MRTEST waited for is cancelled. DESIGN CHOICE (log 24): answers the source has supplied and no round
has consumed stay queued in `source` for the next MRTEST; R45 says nothing of them. -/
def State.softReset (s : State) : State :=
  (s.forgetAll (if s.busy then s.curDests else [])).resetControl

/-- A hardware reset (70_reset_and_hazards.md R250): control state as R44, every big register and `CUR` unspecified. -/
def State.hardReset (s : State) : State :=
  { s.resetControl with
    big := Vector.ofFn fun i => Config.freeBig (s.fresh + i.val)
    cur := Config.freeWord s.fresh
    fresh := s.fresh + Config.NREG }

end Sys2Proof.Machine
end

