-- ==== Sys2Proof/Machine/Crt.lean ====
section
/-! DEFINITION. CRTSTEP (44_crt.md). -/

namespace Sys2Proof.Machine

/-- `h = ((m_i - m) * t_i) mod r_i`, floor modulus (R200; 00_scope.md R9), for `r_i >= 1`. -/
def crtH (m mi ri ti : Nat) : Nat :=
  ((((mi : Int) - (m : Int)) * (ti : Int)) % (ri : Int)).toNat

/-- CRTSTEP's rule (R200) on its operand values. -/
def crtstepRule (rd rs1 : Reg) (m r mi ri ti : Nat) : Except EngineFault Effect :=
  if ri = 0 then .error .operandRange
  else if 2 ^ Config.W ≤ m + r * crtH m mi ri ti ∨ 2 ^ Config.W ≤ r * ri then .error .resultOverflow
  else .ok (.writeTwo rd (m + r * crtH m mi ri ti) rs1 (r * ri))

/-- CRTSTEP (R200). -/
def execCrtstep (rd rs1 rs2 rs3 rs4 : Reg) (s : State) : Host.Outcome State Fault Refusal :=
  .next (s.finish (crtstepRule rd rs1 (s.x rd) (s.x rs1) (s.x rs2) (s.x rs3) (s.x rs4)))

end Sys2Proof.Machine
end

