-- ==== Sys2Proof/Machine/Arith.lean ====
section
/-! DEFINITION. The helper functions of 00_scope.md R10, R14: bit lengths, modular exponentiation, powers of two taken out of a
number, the greatest common divisor, the Jacobi symbol, the perfect-square predicate. Each is a total function; each loop is
structural on a bound its docstring justifies. -/

namespace Sys2Proof.Machine

/-- `bitlen(v)` (R10). -/
def bitlen (v : Nat) : Nat :=
  if v = 0 then 0 else Nat.log2 v + 1

/-- The loop of `ModExp` (40_modexp.md R121), `k` bits left: `e` is the exponent shifted to its next bit. -/
def modExpLoop (n : Nat) : Nat → Nat → Nat → Nat → Nat
  | 0, _, _, acc => acc
  | k + 1, e, base, acc =>
    modExpLoop n k (e / 2) (base * base % n) (if e % 2 = 1 then acc * base % n else acc)

/-- `ModExp(b, e, n)` (R121): accumulator 1, base squared each bit, multiplied in on set bits, least significant bit first. -/
def modExp (b e n : Nat) : Nat :=
  modExpLoop n (bitlen e) e b 1

/-- `(e, a1)` with `a = 2^e * a1`: halve while even, at most `k` times. -/
def splitTwosLoop : Nat → Nat → Nat × Nat
  | 0, a => (0, a)
  | k + 1, a =>
    if a % 2 = 0 then
      let r := splitTwosLoop k (a / 2)
      (r.1 + 1, r.2)
    else (0, a)

/-- "write a = 2^e * a1 with a1 odd", for `a >= 1` (42_primality.md R151, 43_jacobi.md R182): `bitlen a` halvings suffice. -/
def splitTwos (a : Nat) : Nat × Nat :=
  splitTwosLoop (bitlen a) a

/-- `Gcd(a, b)` (43_jacobi.md R181). -/
def gcdOf (a b : Nat) : Nat :=
  Nat.gcd a b

/-- The sign `s` of one step of R182: from the parity of `e` and `n mod 8`, and from `n mod 4` and `a1 mod 4`. -/
def jacobiSign (e a1 n : Nat) : Int :=
  let s : Int := if e % 2 = 0 then 1 else if n % 8 = 1 ∨ n % 8 = 7 then 1 else -1
  if n % 4 = 3 ∧ a1 % 4 = 3 then -s else s

/-- `Jacobi(a, n)` of R182 for a natural `a`. The second argument strictly decreases (R182), so a bound of `n` calls is never
reached; the bound's own value 0 is no result of the rule. -/
def jacobiLoop : Nat → Nat → Nat → Int
  | 0, _, _ => 0
  | k + 1, a₀, n =>
    let a := a₀ % n
    if a = 1 ∨ n = 1 then 1
    else if a = 0 then 0
    else
      let p := splitTwos a
      jacobiSign p.1 p.2 n * jacobiLoop k (n % p.2) p.2

/-- `Jacobi(a, n)` (43_jacobi.md R182), any sign of `a`, `n` odd: the first step reduces `a` by the floor modulus (R9). -/
def jacobi (a : Int) (n : Nat) : Int :=
  jacobiLoop n (a % (n : Int)).toNat n

/-- The integer square root, one bit at a time from bit `i - 1` down: `r` is the root so far. -/
def isqrtLoop (n : Nat) : Nat → Nat → Nat
  | 0, r => r
  | i + 1, r => if (r + 2 ^ i) * (r + 2 ^ i) ≤ n then isqrtLoop n i (r + 2 ^ i) else isqrtLoop n i r

/-- The integer square root: the root of an `l`-bit number has at most `(l + 1) / 2` bits. -/
def isqrt (n : Nat) : Nat :=
  isqrtLoop n ((bitlen n + 1) / 2) 0

/-- `IsSquare(n)` (43_jacobi.md R186): the predicate; the method is not visible (log 16). -/
def isSquare (n : Nat) : Bool :=
  isqrt n * isqrt n == n

end Sys2Proof.Machine
end

