-- ==== Sys2Proof/Machine/Jacobi.lean ====
section
/-! DEFINITION. JACOBI and ISSQR (43_jacobi.md). -/

namespace Sys2Proof.Machine

/-- JACOBI's rule (R183): odd `n`, then the symbol. -/
def jacobiRule (a : Int) (n : Nat) : Except EngineFault Effect :=
  if n % 2 = 0 then .error .operandRange
  else .ok (.setJac (jacField (jacobi a n)))

/-- JACOBI (R183). -/
def execJacobi (rs1 rs3 : Reg) (sa : Bool) (s : State) : Host.Outcome State Fault Refusal :=
  .next (s.finish (jacobiRule (s.signedX rs1 sa) (s.x rs3)))

/-- ISSQR (R187). -/
def execIssqr (rs1 : Reg) (s : State) : Host.Outcome State Fault Refusal :=
  .next (s.finish (.ok (.setV (isSquare (s.x rs1)))))

end Sys2Proof.Machine
end

