-- ==== Sys2Proof/Machine/Modexp.lean ====
section
/-! DEFINITION. MODEXP and RSAEP (40_modexp.md). -/

namespace Sys2Proof.Machine

/-- MODEXP's rule (R120) on its operand values. -/
def modexpRule (rd : Reg) (b e n : Nat) : Except EngineFault Effect :=
  if n < 2 then .error .operandRange
  else .ok (.writeX rd (modExp b e n))

/-- RSAEP's rule (R125): the modulus check, then the message range check (R215). -/
def rsaepRule (rd : Reg) (m e n : Nat) : Except EngineFault Effect :=
  if n < 2 then .error .operandRange
  else if n ≤ m then .error .messageOutOfRange
  else .ok (.writeX rd (modExp m e n))

/-- MODEXP (R120). -/
def execModexp (rd rs1 rs2 rs3 : Reg) (s : State) : Host.Outcome State Fault Refusal :=
  .next (s.finish (modexpRule rd (s.x rs1) (s.x rs2) (s.x rs3)))

/-- RSAEP (R125). -/
def execRsaep (rd rs1 rs2 rs3 : Reg) (s : State) : Host.Outcome State Fault Refusal :=
  .next (s.finish (rsaepRule rd (s.x rs1) (s.x rs2) (s.x rs3)))

end Sys2Proof.Machine
end

