-- ==== Sys2Proof/Machine/Montgomery.lean ====
section
/-! DEFINITION. MONTRED (41_montgomery.md). -/

namespace Sys2Proof.Machine

/-- `k`, the modulus length in bits rounded up to whole limbs (R141). -/
def montBits (n : Nat) : Nat :=
  32 * ((bitlen n + 31) / 32)

/-- Newton's iteration for `-(N^-1)` modulo a power of two: `t` steps from an `N`-inverse modulo 2 give one modulo `2^(2^t)`. -/
def montInvLoop (n rm : Nat) : Nat → Nat
  | 0 => 1
  | t + 1 =>
    let y := montInvLoop n rm t
    y * (2 + n * y) % rm

/-- `Ninv`, the number below `Rm = 2^k` with `(N * Ninv) mod Rm = Rm - 1` (R141), for odd `N`. -/
def montInv (n k : Nat) : Nat :=
  montInvLoop n (2 ^ k) (bitlen k) % 2 ^ k

/-- `Redc(T, N)` (R141). -/
def redc (t n : Nat) : Nat :=
  let rm := 2 ^ montBits n
  let q := (t % rm) * montInv n (montBits n) % rm
  let u := (t + q * n) / rm
  if n ≤ u then u - n else u

/-- MONTRED's rule (R140): odd modulus, then `T < N * 2^k`. -/
def montredRule (rd : Reg) (t n : Nat) : Except EngineFault Effect :=
  if n % 2 = 0 then .error .operandRange
  else if n * 2 ^ montBits n ≤ t then .error .operandRange
  else .ok (.writeX rd (redc t n))

/-- MONTRED (R140). -/
def execMontred (rd rs1 rs3 : Reg) (s : State) : Host.Outcome State Fault Refusal :=
  .next (s.finish (montredRule rd (s.x rs1) (s.x rs3)))

end Sys2Proof.Machine
end

