-- ==== Sys2Proof/Machine/Primality.lean ====
section
/-! DEFINITION. MRROUND, MRTEST and LUCAS (42_primality.md) and the random port's draws (60_exceptions.md R230 to R232). -/

namespace Sys2Proof.Machine

/-- The shortcut sets `MR_TRUE` and `MR_FALSE` of Miller-Rabin (R152), the Lucas test's too (R161). -/
def shortcut (w : Nat) : Option Bool :=
  if w = 2 ∨ w = 3 ∨ w = 5 ∨ w = 7 then some true
  else if w = 0 ∨ w = 1 ∨ w = 4 ∨ w = 6 ∨ w = 8 ∨ w = 9 then some false
  else none

/-- The squaring loop of `MrWitness` (R151), `i` squarings left. -/
def mrLoop (w : Nat) : Nat → Nat → Bool
  | 0, _ => true
  | i + 1, z => if z = w - 1 then false else mrLoop w i (z * z % w)

/-- `MrWitness(w, b)` (R151): `b` shows `w` composite. -/
def mrWitness (w b : Nat) : Bool :=
  let p := splitTwos (w - 1)
  let z := modExp b p.2 w
  if z = 1 then false else mrLoop w p.1 z

/-- MRROUND's rule (R150): shortcuts, then the witness range, then the round. -/
def mrroundRule (w b : Nat) : Except EngineFault Effect :=
  match shortcut w with
  | some t => .ok (.setV t)
  | none => if b < 2 ∨ w - 2 < b then .error .operandRange else .ok (.setV (!mrWitness w b))

/-- MRROUND (R150). -/
def execMrround (rs1 rs2 : Reg) (s : State) : Host.Outcome State Fault Refusal :=
  .next (s.finish (mrroundRule (s.x rs1) (s.x rs2)))

/-- `Draw(lo, hi)` answered from a raw answer of the source (60_exceptions.md R230): an answer in the range is taken as it is.
The rule's only law is the range, so a raw number outside it is brought into it; every in-range sequence is some sequence of
raw numbers. DESIGN CHOICE (log 6); safe. -/
def drawFrom (lo hi raw : Nat) : Nat :=
  if lo ≤ raw ∧ raw ≤ hi then raw else lo + raw % (hi - lo + 1)

/-- How the rounds of an MRTEST end. -/
inductive MrRun where
  /-- The verdict, and the source's answers not consumed. -/
  | decided (verdict : Bool) (rest : List Nat)
  /-- A draw is pending and the source has no answer. -/
  | blocked
  deriving DecidableEq, Repr

/-- The rounds still to make (R155, R232): one draw a round, none after the first composite witness. -/
def mrRounds (w : Nat) : Nat → List Nat → MrRun
  | 0, src => .decided true src
  | _ + 1, [] => .blocked
  | n + 1, raw :: rest =>
    if mrWitness w (drawFrom 2 (w - 2) raw) then .decided false rest else mrRounds w n rest

/-- MRTEST's step on the candidate (R155, R231). Blocked, it keeps BUSY and changes nothing the host can see; the rounds its
answers have decided stay decided (log 7). -/
def mrtestStep (w rounds : Nat) (s : State) : State :=
  match shortcut w with
  | some t => s.finish (.ok (.setV t))
  | none =>
    match mrRounds w (rounds - s.mrPassed) s.source with
    | .decided t rest => { s with source := rest }.finish (.ok (.setV t))
    | .blocked => { s with mrPassed := s.mrPassed + s.source.length, source := [] }

/-- MRTEST (R155). -/
def execMrtest (rs1 : Reg) (imm12 : BitVec 12) (s : State) : Host.Outcome State Fault Refusal :=
  .next (mrtestStep (s.x rs1) (roundsOf imm12) s)

/-- `NextD(D)` (R163). -/
def nextD (d : Int) : Int :=
  if d < 0 then -d + 2 else -(d + 2)

/-- How the discriminant search of R163 ends. -/
inductive LucasSearch where
  /-- The search stops with this discriminant. -/
  | found (d : Int)
  /-- A trial had the Jacobi symbol 0: the test rejects. -/
  | rejected
  /-- The bound on the trials was used up (R164: never, for odd `n >= 11`). -/
  | exhausted
  deriving DecidableEq, Repr

/-- The discriminant search (R163), `k` trials left. -/
def lucasSearch (n : Nat) : Nat → Int → LucasSearch
  | 0, _ => .exhausted
  | k + 1, d =>
    let j := jacobi d n
    if j = 0 then .rejected
    else if j = -1 ∧ gcdOf n ((1 - d) / 4).natAbs = 1 then .found d
    else lucasSearch n k (nextD d)

/-- The doubling loop of `LucasU` (R165), `i` bits of `K = n + 1` left. -/
def lucasLoop (n : Nat) (d inv2 : Int) : Nat → Int → Int → Int
  | 0, u, _ => u
  | i + 1, u, v =>
    let ut := u * v % n
    let vt := (v * v + d * u * u) * inv2 % n
    if (n + 1).testBit i then lucasLoop n d inv2 i ((ut + vt) * inv2 % n) ((vt + d * ut) * inv2 % n)
    else lucasLoop n d inv2 i ut vt

/-- `LucasU(n, D)` (R165). -/
def lucasU (n : Nat) (d : Int) : Int :=
  lucasLoop n d (((n + 1) / 2 : Nat) : Int) (bitlen (n + 1) - 1) 1 1

/-- The Lucas test (R160) with first discriminant `d₀`; `(n - 1) / 2` trials suffice (R164; log 17). -/
def lucasTest (d₀ : Int) (n : Nat) : Bool :=
  match shortcut n with
  | some t => t
  | none =>
    if n % 2 = 0 then false
    else if isSquare n then false
    else
      match lucasSearch n ((n - 1) / 2) d₀ with
      | .found d => lucasU n d == 0
      | .rejected => false
      | .exhausted => false

/-- LUCAS (R160). -/
def execLucas (rs1 : Reg) (s : State) : Host.Outcome State Fault Refusal :=
  .next (s.finish (.ok (.setV (lucasTest (Config.lucasD s.lucasFirst) (s.x rs1)))))

end Sys2Proof.Machine
end

