-- ==== Sys2Proof/Machine/Dispatch.lean ====
section
/-! DEFINITION. What each command does at completion (10_state.md R36): one arm per constructor. -/

namespace Sys2Proof.Machine

def exec (i : Instr) (s : State) : Host.Outcome State Fault Refusal :=
  match i with
  | .modexp rd rs1 rs2 rs3 => Sys2Proof.Machine.execModexp rd rs1 rs2 rs3 s
  | .rsaep rd rs1 rs2 rs3 => Sys2Proof.Machine.execRsaep rd rs1 rs2 rs3 s
  | .montred rd rs1 rs3 => Sys2Proof.Machine.execMontred rd rs1 rs3 s
  | .crtstep rd rs1 rs2 rs3 rs4 => Sys2Proof.Machine.execCrtstep rd rs1 rs2 rs3 rs4 s
  | .mrround rs1 rs2 => Sys2Proof.Machine.execMrround rs1 rs2 s
  | .mrtest rs1 imm12 => Sys2Proof.Machine.execMrtest rs1 imm12 s
  | .lucas rs1 => Sys2Proof.Machine.execLucas rs1 s
  | .jacobi rs1 rs3 sa => Sys2Proof.Machine.execJacobi rs1 rs3 sa s
  | .issqr rs1 => Sys2Proof.Machine.execIssqr rs1 s

end Sys2Proof.Machine
end

