-- ==== Sys2Proof/Machine/Window.lean ====
section
/-! DEFINITION. The host window (20_memory.md R60 to R67): what an address reaches, what a read answers, what a write does. -/

namespace Sys2Proof.Machine

/-- What an aligned 4-byte access reaches (R61). -/
inductive Target where
  | cmd
  | status
  | ecmd
  | ctrl
  | id
  | limb (i : Reg) (j : Fin Config.LIMBS)
  deriving DecidableEq, Repr

/-- Limb number `n` of the register window, counted from its base (R61): limb `n mod LIMBS` of `x[n div LIMBS]`. -/
def limbTarget (n : Nat) : Option Target :=
  if h : n / Config.LIMBS < Config.NREG then
    some (.limb ⟨n / Config.LIMBS, h⟩ ⟨n % Config.LIMBS, Nat.mod_lt n (by decide)⟩)
  else none

/-- The address map (R61) with the register window at `base`, for aligned 4-byte accesses only (R63); reserved addresses and
addresses outside the window reach nothing (R66). -/
def targetOf (base addr size : Nat) : Option Target :=
  if size ≠ 4 ∨ addr % 4 ≠ 0 then none
  else if addr = 0x0000 then some .cmd
  else if addr = 0x0004 then some .status
  else if addr = 0x0008 then some .ecmd
  else if addr = 0x000C then some .ctrl
  else if addr = 0x0010 then some .id
  else if addr < base then none
  else limbTarget ((addr - base) / 4)

/-- The byte offset of limb `j` of `x[i]` with the register window at `base` (R61). -/
def limbAddr (base : Nat) (i : Reg) (j : Fin Config.LIMBS) : Nat :=
  base + 4 * Config.LIMBS * i.val + 4 * j.val

/-- What a host read answers. It changes nothing (R67). The register window answers `BusError` while `BUSY = 1` (R65). -/
def State.readAnswer (s : State) (addr size : Nat) : BusAnswer :=
  match targetOf s.rfBase addr size with
  | some .cmd => .data 0
  | some .status => .data s.statusWord
  | some .ecmd => .data s.ecmd
  | some .ctrl => .data s.ctrlWord
  | some .id => .data idWord
  | some (.limb i j) => if s.busy then .busError else .data (limbOf (s.bigReg i) j)
  | none => .busError

/-- A write to `CMD` (10_state.md R32): accepted when `BUSY = 0` and `ERR = 0`, else dropped and `OVR` set. -/
def State.writeCmd (s : State) (c : Word) : State :=
  if s.busy || s.err then { s with ovr := true } else s.accept c

/-- `DONE <- 0` if bit 1 of the written word is 1 (10_state.md R33). -/
def State.clearDoneIf (s : State) (b : Bool) : State :=
  if b then { s with done := false } else s

/-- `OVR <- 0` if bit 3 of the written word is 1 (R33). -/
def State.clearOvrIf (s : State) (b : Bool) : State :=
  if b then { s with ovr := false } else s

/-- Leave the fault if bit 2 of the written word is 1 (R33). -/
def State.clearFaultIf (s : State) (b : Bool) : State :=
  if b then s.clearFault else s

/-- A write to `STATUS` (R33): write-1-to-clear of bits 1, 2 and 3; all other bits are ignored. -/
def State.writeStatus (s : State) (w : Word) : State :=
  ((s.clearDoneIf (w.getLsbD 1)).clearFaultIf (w.getLsbD 2)).clearOvrIf (w.getLsbD 3)

/-- A write to `CTRL` (R34): bit 31 set performs the soft reset and ignores the other bits. -/
def State.writeCtrl (s : State) (w : Word) : State :=
  if w.getLsbD 31 then s.softReset else { s with ieDone := w.getLsbD 0, ieErr := w.getLsbD 1 }

/-- A write to a limb (20_memory.md R64), nothing while `BUSY = 1` (R65). -/
def State.writeLimb (s : State) (i : Reg) (j : Fin Config.LIMBS) (w : Word) : State :=
  if s.busy then s else s.setBig i (withLimb (s.bigReg i) j w)

/-- What a host write does to the engine (R67). -/
def State.hostWrite (s : State) (addr size : Nat) (w : Word) : State :=
  match targetOf s.rfBase addr size with
  | some .cmd => s.writeCmd w
  | some .status => s.writeStatus w
  | some .ecmd => s
  | some .ctrl => s.writeCtrl w
  | some .id => s
  | some (.limb i j) => s.writeLimb i j w
  | none => s

/-- What a host write is answered: performed, or `BusError` (R60, R63, R65, R66). -/
def State.writeAnswer (s : State) (addr size : Nat) : BusAnswer :=
  match targetOf s.rfBase addr size with
  | some (.limb _ _) => if s.busy then .busError else .written
  | some _ => .written
  | none => .busError

end Sys2Proof.Machine
end

