-- ==== Sys2Proof/Machine/Env.lean ====
section
/-! DEFINITION. The engine's turn (10_state.md R36) and the environment's steps: host accesses, the pseudo-instructions of
30_encoding.md R97, the random source, hardware reset. -/

namespace Sys2Proof.Machine

/-- `ISSUE c` (R97). -/
def issue (c : Word) : EnvOp :=
  .write 0x0000 4 c

/-- `CLRERR` (R97). -/
def clrErr : EnvOp :=
  .write 0x0004 4 0x00000004

/-- `CLRDONE` (R97). -/
def clrDone : EnvOp :=
  .write 0x0004 4 0x00000002

/-- `SRST` (R97). -/
def srst : EnvOp :=
  .write 0x000C 4 0x80000000

/-- The limb writes `LDR xi, v` expands to, in order (R97), the register window being at `base`. -/
def ldrWrites (base : Nat) (i : Reg) (v : BitVec Config.W) : List EnvOp :=
  (List.finRange Config.LIMBS).map fun j => .write (limbAddr base i j) 4 (limbOf v j)

/-- The engine's turn: with `BUSY = 1` the completion step (10_state.md R36), an illegal word raising `IllegalCommand`
(30_encoding.md R94); with `BUSY = 0` nothing. -/
def engineTurn (s : State) : Host.Outcome State Fault Refusal :=
  if s.busy then
    match decode s.cur with
    | .ok i => exec i s
    | .error _ => .next (s.raiseFault .illegalCommand)
  else .next s

/-- The environment goes on to its next entry. -/
def State.advance (s : State) : State :=
  { s with epc := s.epc + 1 }

/-- The window answers the host. -/
def State.answered (s : State) (a : BusAnswer) : State :=
  { s with answer := some a }

/-- `MemRead(addr, size)` by the host (00_scope.md R12): the answer, and nothing else (20_memory.md R67). -/
def State.hostRead (s : State) (addr size : Nat) : State :=
  s.answered (s.readAnswer addr size)

/-- `MemWrite(addr, size, w)` by the host (00_scope.md R12): what the write does, and its answer. -/
def State.hostStore (s : State) (addr size : Nat) (w : Word) : State :=
  (s.hostWrite addr size w).answered (s.writeAnswer addr size)

/-- A host branch of R97: to the entry `label` if the condition holds. -/
def State.branchIf (s : State) (b : Bool) (label : Nat) : State :=
  { s with epc := if b then label else s.epc + 1 }

/-- The host goes on to the next limb of its LDR or RDR, and after the last one to its next entry. -/
def State.nextLimb (s : State) : State :=
  { s with limb := s.limb + 1, epc := if s.limb.val + 1 = Config.LIMBS then s.epc + 1 else s.epc }

/-- The number an answer carries; a refused read carries none, which RDR, then not legal, counts as 0 (log 9). -/
def answerValue : Option BusAnswer → Nat
  | some (.data w) => w.toNat
  | some .written => 0
  | some .busError => 0
  | none => 0

/-- RDR adds the limb just read to its sum, which starts at limb 0 (R97). -/
def State.gather (s : State) : State :=
  { s with gathered := (if s.limb.val = 0 then 0 else s.gathered) + answerValue s.answer * 2 ^ (32 * s.limb.val) }

/-- One of the limb writes of `LDR xi, v` (R97; 20_memory.md R68). -/
def State.ldr (s : State) (i : Reg) (v : BitVec Config.W) : State :=
  (s.hostStore (limbAddr s.rfBase i s.limb) 4 (limbOf v s.limb)).nextLimb

/-- One of the limb reads of `RDR xi` (R97; 20_memory.md R68). -/
def State.rdr (s : State) (i : Reg) : State :=
  (s.hostRead (limbAddr s.rfBase i s.limb) 4).gather.nextLimb

/-- `WAIT` seen to end (R97): `BUSY = 0`, and the last status word is the one the program then tests. -/
def State.waited (s : State) : State :=
  { s with answer := some (.data s.statusWord), polled := s.statusWord }

/-- One step of an entry of the environment's program. `WAIT` while `BUSY = 1` leaves the turn to the engine and stays (log 10). -/
def envStep (op : EnvOp) (s : State) : Host.Outcome State Fault Refusal :=
  match op with
  | .read addr size => .next (s.hostRead addr size).advance
  | .write addr size w => .next (s.hostStore addr size w).advance
  | .ldr i v => .next (s.ldr i v)
  | .rdr i => .next (s.rdr i)
  | .wait => if s.busy then engineTurn s else .next s.waited.advance
  | .berr label => .next (s.branchIf (polledErr s.polled) label)
  | .bv label => .next (s.branchIf (polledV s.polled) label)
  | .bnv label => .next (s.branchIf (!polledV s.polled) label)
  | .engine => engineTurn s.advance
  | .supply raw => .next { s with source := s.source ++ [raw] }.advance
  | .hardReset => .next s.hardReset.advance

/-- One step of the machine: the environment's entry at `epc`; when its program is over, the engine's turn (log 8). -/
def machineStep (s : State) : Host.Outcome State Fault Refusal :=
  match s.env[s.epc]? with
  | some op => envStep op s
  | none => engineTurn s

/-- The state in which the very next step runs the command word `c`: `c` is accepted (10_state.md R37), and the environment
has nothing more to do, so the engine has the next turn (log 11). -/
def State.withCommand (s : State) (c : Word) : State :=
  { s.accept c with epc := s.env.length }

end Sys2Proof.Machine
end

