-- ==== Sys2Proof/Machine/Step.lean ====
section
/-! DEFINITION. One step of the machine, and the state whose next step runs a given command word. -/

namespace Sys2Proof.Machine

/-- One step: the environment's next action or the engine's turn (Machine/Env.lean). -/
def step (s : State) : Host.Outcome State Fault Refusal :=
  machineStep s

/-- `s` with a command word stored where the machine takes its next command from. The engine fetches nothing (10_state.md R31):
the word is in `CUR`, accepted (R37), and the engine has the next turn. -/
def State.withFetchWord (s : State) (nbits w : Nat) : State :=
  s.withCommand (BitVec.ofNat 32 (w % 2 ^ nbits))

end Sys2Proof.Machine
end

