-- ==== Sys2Proof/Safety.lean ====
section
/-! DEFINITION. The terms claims are stated in: the control invariant of the engine, the mathematical notions the rules name,
written without the model's loops, and the premises about a run that the spec names: weak fairness (70_reset_and_hazards.md R270),
that the random source answers (60_exceptions.md R231) and the launch premises (R252). -/

namespace Sys2Proof

open Sys2Proof.Machine

/-- The environment's next entry is an LDR or an RDR. -/
def Machine.State.atLimbs (s : State) : Bool :=
  match s.env[s.epc]? with
  | some (.ldr _ _) => true
  | some (.rdr _) => true
  | _ => false

/-- The control state is one the rules can produce: a command is in execution only with `DONE` and `ERR` clear (10_state.md
R37), a latched fault has a code 1 to 4 and `DONE` clear, no fault means `ECODE` and `ECMD` zero (R33, R34; 60_exceptions.md
R211, R213), and `JAC` is never `0b10` (R33). The last clause is of the host: it is between two limbs only in an LDR or RDR (log
9). -/
def ControlInv (s : State) : Prop :=
  (s.busy = true → s.done = false ∧ s.err = false) ∧
  (s.err = true → s.done = false ∧ 1 ≤ s.ecode.toNat ∧ s.ecode.toNat ≤ 4) ∧
  (s.err = false → s.ecode = 0 ∧ s.ecmd = 0) ∧
  s.jac ≠ 0b10 ∧
  (s.limb.val ≠ 0 → s.atLimbs = true)

/-- The predicate of `MrWitness(w, b)` (42_primality.md R151): with `w - 1 = 2^a * m`, `m` odd, `b^m` is not 1 and no
`b^(2^i * m)` with `i < a` is `w - 1`, modulo `w`. -/
def IsWitness (w b : Nat) : Prop :=
  ∀ a m : Nat, m % 2 = 1 → w - 1 = 2 ^ a * m →
    b ^ m % w ≠ 1 ∧ ∀ i : Nat, i < a → b ^ (2 ^ i * m) % w ≠ w - 1

/-- The trial discriminants `D_k` (42_primality.md R163): `-3, 5, -7, 9, ...` or `5, -7, 9, -11, ...`. -/
def trialD : Config.LucasFirst → Nat → Int
  | .minusThree, k => (-1) ^ (k + 1) * (2 * k + 3)
  | .five, k => (-1) ^ k * (2 * k + 5)

/-- The Lucas sequence `U_0 = 0, U_1 = 1, U_{k+2} = U_{k+1} - Q * U_k` (42_primality.md R165). -/
def lucasSeq (q : Int) : Nat → Int
  | 0 => 0
  | 1 => 1
  | k + 2 => lucasSeq q (k + 1) - q * lucasSeq q k

/-- A trial discriminant `d` ends the search of R163 on `n`: its Jacobi symbol is 0, or it is -1 and the gcd condition holds. -/
def EndsSearch (d : Int) (n : Nat) : Prop :=
  jacobiSym d n = 0 ∨ (jacobiSym d n = -1 ∧ Nat.gcd n ((1 - d) / 4).natAbs = 1)

/-! ### Runs -/

/-- The state a step leads to. Every step answers a next state (log 21); the other outcomes would leave the machine where it is. -/
def afterStep (s : State) : State :=
  match step s with
  | .next t => t
  | .fault _ => s
  | .refused _ => s

/-- The state after `n` steps from `s`. -/
def stateAt (s : State) : Nat → State
  | 0 => s
  | n + 1 => afterStep (stateAt s n)

/-! ### Weak fairness and the random source -/

/-- The completion step is enabled (10_state.md R36): a command is in execution and the engine's turn ends it, which it does not
only where an MRTEST lacks an answer (60_exceptions.md R231). -/
def completionEnabled (s : State) : Bool :=
  s.busy && match engineTurn s with
    | .next t => !t.busy
    | .fault _ => false
    | .refused _ => false

/-- The next step is the engine's turn (log 8). -/
def engineHasTurn (s : State) : Bool :=
  match s.env[s.epc]? with
  | none => true
  | some .engine => true
  | some .wait => s.busy
  | _ => false

/-- WEAK FAIRNESS (70_reset_and_hazards.md R270; log 15) of the run from `s`: a completion step that stays enabled from some step on
eventually has its turn. -/
def WeaklyFair (s : State) : Prop :=
  ∀ n : Nat, (∀ m : Nat, n ≤ m → completionEnabled (stateAt s m) = true) →
    ∃ m : Nat, n ≤ m ∧ engineHasTurn (stateAt s m) = true

/-- A draw is pending (10_state.md R42 (b)): an MRTEST is in execution and cannot complete for want of an answer. -/
def drawPending (s : State) : Bool :=
  s.busy && !completionEnabled s

/-- THE RANDOM SOURCE ANSWERS in the run from `s` (60_exceptions.md R231; log 15): whenever a draw is pending, later none is. -/
def SourceAnswers (s : State) : Prop :=
  ∀ n : Nat, drawPending (stateAt s n) = true → ∃ m : Nat, n ≤ m ∧ drawPending (stateAt s m) = false

/-! ### Launch premises -/

/-- Which limbs have been written (10_state.md R23): by the host, or with the whole register by a command. It is a notion of
claims; the engine has no such bits. -/
abbrev Written : Type := Reg → Fin Config.LIMBS → Bool

/-- The limbs written after the step from `s`, `w` being those written before it: a limb the host writes; all limbs of the
destinations of a command that completes without fault; none after a hardware reset; no longer the destinations of a command that
a soft reset aborts (10_state.md R23, R45). -/
def writtenAfter (w : Written) (s : State) : Written := fun i j =>
  let u := afterStep s
  if s.busy then
    if u.busy then w i j
    else if s.env[s.epc]? = some .hardReset then false
    else if u.done then w i j || decide (i ∈ s.curDests)
    else if u.err then w i j
    else w i j && !decide (i ∈ s.curDests)
  else
    match s.env[s.epc]? with
    | some (.write addr size _) => w i j || decide (targetOf s.rfBase addr size = some (.limb i j))
    | some (.ldr k _) => w i j || decide (k = i ∧ s.limb = j)
    | some .hardReset => false
    | _ => w i j

/-- The limbs written after `n` steps of the run from `s`, `w` being those written at its start. -/
def writtenAt (w : Written) (s : State) : Nat → Written
  | 0 => w
  | n + 1 => writtenAfter (writtenAt w s n) (stateAt s n)

/-- If the next step has a legal command accepted, every register it reads is completely written. -/
def issuesOnlyOnWritten (w : Written) (s : State) : Bool :=
  match s.env[s.epc]? with
  | some (.write 0x0000 4 c) =>
    if s.busy || s.err then true
    else match decode c with
      | .ok i => i.sources.all fun r => (List.finRange Config.LIMBS).all fun j => w r j
      | .error _ => true
  | _ => true

/-- The next step's host access, if it is one, is an aligned word of the window, of the register window only while idle. -/
def accessesAsExpanded (s : State) : Bool :=
  let reaches (addr size : Nat) : Bool :=
    match targetOf s.rfBase addr size with
    | some (.limb _ _) => !s.busy
    | some _ => true
    | none => false
  match s.env[s.epc]? with
  | some (.read addr size) => reaches addr size
  | some (.write addr size _) => reaches addr size
  | some (.ldr _ _) => !s.busy
  | some (.rdr _) => !s.busy
  | _ => true

/-- THE LAUNCH PREMISES (70_reset_and_hazards.md R252; log 25) of the run from `s`, the limbs `w` being written at its start: `BUSY`, `ERR`
and `OVR` are 0; every command is issued only on registers completely written before; the host's accesses are those 30_encoding.md
R97 expands to; the random source answers. -/
structure LaunchPremises (w : Written) (s : State) : Prop where
  idle : s.busy = false
  unfaulted : s.err = false
  noOverrun : s.ovr = false
  operandsWritten : ∀ n : Nat, issuesOnlyOnWritten (writtenAt w s n) (stateAt s n) = true
  accesses : ∀ n : Nat, accessesAsExpanded (stateAt s n) = true
  sourceAnswers : SourceAnswers s

end Sys2Proof
end

