-- ==== Sys2Proof/Certificates/Slice0/Obligations.lean ====
section
/-! DEFINITION. The statements for the provers. Where a statement gives the state after a command as a record, every field not
named keeps its value: that is the command's frame. -/

open Sys2Proof Sys2Proof.Machine

/-! ### Encoding -/

/-- R93, R92: decoding the word a command is written with gives the command back, every operand at every value. -/
def Obligations.DecodeOfEncode : Prop :=
  ∀ i : Instr, i.wellFormed = true → decode (encode i) = .ok i

/-- R93, R94: a word that decodes is the word its command is written with, and the command is well formed; so no two words share
a command and no bit of a legal word is ignored. -/
def Obligations.EncodeOfDecode : Prop :=
  ∀ (c : Word) (i : Instr), decode c = .ok i → i.wellFormed = true ∧ encode i = c

/-- R93: a word decodes exactly when it agrees with the match of some row of R92 on the row's mask, the register fields the row
uses are below NREG, and, for CRTSTEP, `rd` is not `rs1`. Rows: match, mask, low bits of the register fields used. -/
def Obligations.LegalWordsAreTheTableRows : Prop :=
  ∀ c : Word, (∃ i, decode c = .ok i) ↔
    ∃ row ∈ ([(0x01000000#32, 0xFF0000FF#32, [20, 16, 12, 8]), (0x02000000#32, 0xFF0000FF#32, [20, 16, 12, 8]),
        (0x03000000#32, 0xFF00F0FF#32, [20, 16, 8]), (0x04000000#32, 0xFF00000F#32, [20, 16, 12, 8, 4]),
        (0x10000000#32, 0xFFF00FFF#32, [16, 12]), (0x11000000#32, 0xFFF0F000#32, [16]),
        (0x12000000#32, 0xFFF0FFFF#32, [16]), (0x13000000#32, 0xFFF0F0FE#32, [16, 8]),
        (0x14000000#32, 0xFFF0FFFF#32, [16])] : List (Word × Word × List Nat)),
      c &&& row.2.1 = row.1 ∧ (∀ k ∈ row.2.2, (c.extractLsb' k 4).toNat < Config.NREG) ∧
        (row.1 = 0x04000000#32 → c.extractLsb' 20 4 ≠ c.extractLsb' 16 4)

/-- R96: the worked encodings decode to the commands they stand for. -/
def Obligations.WorkedEncodingsDecode : Prop :=
  decode 0x01301200 = .ok (.modexp 3 0 1 2) ∧ decode 0x02301200 = .ok (.rsaep 3 0 1 2) ∧
  decode 0x03200100 = .ok (.montred 2 0 1) ∧ decode 0x047689A0 = .ok (.crtstep 7 6 8 9 10) ∧
  decode 0x10001000 = .ok (.mrround 0 1) ∧ decode 0x1100002C = .ok (.mrtest 0 44) ∧
  decode 0x12020000 = .ok (.lucas 2) ∧ decode 0x13000100 = .ok (.jacobi 0 1 false) ∧
  decode 0x13000101 = .ok (.jacobi 0 1 true) ∧ decode 0x14040000 = .ok (.issqr 4)

/-! ### The step -/

/-- R36: with a legal word in execution the engine's turn is that command's completion, whether the environment's program is
over, waits, or passes the turn (log 8, 10; passing the turn moves the environment's index on). -/
def Obligations.StepRunsTheCommandInExecution : Prop :=
  ∀ (s : State) (i : Instr), s.busy = true → decode s.cur = .ok i →
    (s.env[s.epc]? = none → step s = exec i s) ∧
    (s.env[s.epc]? = some .wait → step s = exec i s) ∧
    (s.env[s.epc]? = some .engine → step s = exec i { s with epc := s.epc + 1 })

/-- R94, R213, R36: the engine's turn without a legal command in execution, whether the environment's program is over, waits or
passes the turn (log 8, 10; passing it moves the index on). An illegal word latches `IllegalCommand` and changes nothing else; an
idle engine does nothing; the all-zero and the all-ones word are illegal. -/
def Obligations.EngineTurnWithoutALegalCommand : Prop :=
  (∀ (s : State) (e : DecodeError), s.busy = true → decode s.cur = .error e →
    (s.env[s.epc]? = none → step s = .next { s with err := true, ecode := 1, ecmd := s.cur, busy := false }) ∧
    (s.env[s.epc]? = some .wait → step s = .next { s with err := true, ecode := 1, ecmd := s.cur, busy := false }) ∧
    (s.env[s.epc]? = some .engine →
      step s = .next { s with err := true, ecode := 1, ecmd := s.cur, busy := false, epc := s.epc + 1 })) ∧
  (∀ s : State, s.busy = false →
    (s.env[s.epc]? = none → step s = .next s) ∧
    (s.env[s.epc]? = some .engine → step s = .next { s with epc := s.epc + 1 })) ∧
  (∃ e, decode 0x00000000 = .error e) ∧ (∃ e, decode 0xFFFFFFFF = .error e)

/-- Every step of the machine answers a next state (the model's own: no rule of the spec stops the machine; log 21), and the
parameters `LUCAS_D_FIRST` and `RF_BASE` are the same in it (R6; the fields are the model's: log 5). -/
def Obligations.EveryStepAnswersNextAndKeepsParameters : Prop :=
  ∀ s : State, ∃ t : State, step s = .next t ∧ t.lucasFirst = s.lucasFirst ∧ t.rfBase = s.rfBase

/-- R36, R37: a legal word the host writes to an idle, unfaulted engine is the command the engine then completes, on the big
registers as they were at the write (the host having nothing more to do: log 8). -/
def Obligations.AcceptedCommandIsCompleted : Prop :=
  ∀ (s : State) (c : Word) (i : Instr), s.env[s.epc]? = some (.write 0x0000 4 c) → s.env[s.epc + 1]? = none →
    s.busy = false → s.err = false → decode c = .ok i →
    ∃ t : State, step s = .next t ∧ t.cur = c ∧ (∀ k : Reg, t.x k = s.x k) ∧ t.v = s.v ∧ t.jac = s.jac ∧ step t = exec i t

/-- R32, R37: any word written to `CMD` while idle and not faulted is accepted; a `CMD` write while busy or faulted is dropped and
sets `OVR`; a read of `CMD` returns 0. The fields given as `t`'s own are the model's, of which the rule says nothing. -/
def Obligations.CommandWriteIsAcceptedOrDropped : Prop :=
  (∀ (s : State) (c : Word), s.env[s.epc]? = some (.write 0x0000 4 c) → s.busy = false → s.err = false →
    ∃ t : State, step s = .next t ∧
      t = { s with cur := c, busy := true, done := false, mrPassed := t.mrPassed, answer := t.answer, epc := t.epc }) ∧
  (∀ (s : State) (c : Word), s.env[s.epc]? = some (.write 0x0000 4 c) → (s.busy = true ∨ s.err = true) →
    ∃ t : State, step s = .next t ∧ t = { s with ovr := true, answer := t.answer, epc := t.epc }) ∧
  (∀ s : State, s.readAnswer 0x0000 4 = .data 0)

/-! ### MODEXP and RSAEP -/

/-- R122: `ModExp(b, e, n) = b^e mod n` for `n >= 2`, with `b^0 = 1`, and what follows for `e = 0`, `b = 0`, `e = 1`. -/
def Obligations.ModExpIsPowerModulo : Prop :=
  ∀ b e n : Nat, 2 ≤ n →
    modExp b e n = b ^ e % n ∧ modExp b e n < n ∧ modExp b 0 n = 1 ∧ (1 ≤ e → modExp 0 e n = 0) ∧ modExp b 1 n = b % n ∧
      modExp b e n = modExp (b % n) e n

/-- R120: MODEXP, every case. -/
def Obligations.ModexpOutcome : Prop :=
  ∀ (s : State) (rd rs1 rs2 rs3 : Reg),
    (s.x rs3 < 2 → exec (.modexp rd rs1 rs2 rs3) s
      = .next { s with err := true, ecode := 2, ecmd := s.cur, busy := false }) ∧
    (2 ≤ s.x rs3 → ∃ t : State, exec (.modexp rd rs1 rs2 rs3) s = .next t ∧
      t.x rd = s.x rs1 ^ s.x rs2 % s.x rs3 ∧ (∀ k : Reg, k ≠ rd → t.x k = s.x k) ∧
      t = { s with big := t.big, busy := false, done := true })

/-- R125: RSAEP, every case, the modulus check before the message range check. -/
def Obligations.RsaepOutcome : Prop :=
  ∀ (s : State) (rd rs1 rs2 rs3 : Reg),
    (s.x rs3 < 2 → exec (.rsaep rd rs1 rs2 rs3) s
      = .next { s with err := true, ecode := 2, ecmd := s.cur, busy := false }) ∧
    (2 ≤ s.x rs3 → s.x rs3 ≤ s.x rs1 → exec (.rsaep rd rs1 rs2 rs3) s
      = .next { s with err := true, ecode := 3, ecmd := s.cur, busy := false }) ∧
    (2 ≤ s.x rs3 → s.x rs1 < s.x rs3 → ∃ t : State, exec (.rsaep rd rs1 rs2 rs3) s = .next t ∧
      t.x rd = s.x rs1 ^ s.x rs2 % s.x rs3 ∧ (∀ k : Reg, k ≠ rd → t.x k = s.x k) ∧
      t = { s with big := t.big, busy := false, done := true })

/-- R127: encrypting with RSAEP and decrypting with MODEXP gives the message back, for a modulus that is a product of distinct
primes and exponents inverse to each other modulo every `p - 1`. -/
def Obligations.RsaRoundTrip : Prop :=
  ∀ (s : State) (rm re rn rc rdx rp : Reg), rc ≠ rdx → rc ≠ rn →
    2 ≤ s.x rn → Squarefree (s.x rn) → s.x rm < s.x rn → 1 ≤ s.x re * s.x rdx →
    (∀ p : Nat, p.Prime → p ∣ s.x rn → s.x re * s.x rdx % (p - 1) = 1 % (p - 1)) →
    ∃ t u : State, exec (.rsaep rc rm re rn) s = .next t ∧ exec (.modexp rp rc rdx rn) t = .next u ∧ u.x rp = s.x rm

/-! ### MONTRED -/

/-- R140, R141: MONTRED, every case. The result is the residue `r < N` with `r * 2^k ≡ T`, which is `T * (2^k)^-1 mod N`. -/
def Obligations.MontredOutcome : Prop :=
  ∀ (s : State) (rd rs1 rs3 : Reg) (k : Nat), k = 32 * ((Nat.size (s.x rs3) + 31) / 32) →
    (s.x rs3 % 2 = 0 → exec (.montred rd rs1 rs3) s
      = .next { s with err := true, ecode := 2, ecmd := s.cur, busy := false }) ∧
    (s.x rs3 % 2 = 1 → s.x rs3 * 2 ^ k ≤ s.x rs1 → exec (.montred rd rs1 rs3) s
      = .next { s with err := true, ecode := 2, ecmd := s.cur, busy := false }) ∧
    (s.x rs3 % 2 = 1 → s.x rs1 < s.x rs3 * 2 ^ k → ∃ t : State, exec (.montred rd rs1 rs3) s = .next t ∧
      t.x rd < s.x rs3 ∧ t.x rd * 2 ^ k % s.x rs3 = s.x rs1 % s.x rs3 ∧ (∀ j : Reg, j ≠ rd → t.x j = s.x j) ∧
      t = { s with big := t.big, busy := false, done := true })

/-- R142: MONTRED of the product of two Montgomery forms is the Montgomery form of the product, and MONTRED of a Montgomery
form converts back. -/
def Obligations.MontredMultipliesMontgomeryForms : Prop :=
  ∀ (s : State) (rd rs1 rs3 : Reg) (a b k : Nat), k = 32 * ((Nat.size (s.x rs3) + 31) / 32) → s.x rs3 % 2 = 1 →
    (s.x rs1 = (a * 2 ^ k % s.x rs3) * (b * 2 ^ k % s.x rs3) →
      ∃ t : State, exec (.montred rd rs1 rs3) s = .next t ∧ t.x rd = a * b * 2 ^ k % s.x rs3) ∧
    (s.x rs1 = a * 2 ^ k % s.x rs3 →
      ∃ t : State, exec (.montred rd rs1 rs3) s = .next t ∧ t.x rd = a % s.x rs3)

/-! ### CRTSTEP -/

/-- R200: CRTSTEP, every case, for every well-formed CRTSTEP. -/
def Obligations.CrtstepOutcome : Prop :=
  ∀ (s : State) (rd rs1 rs2 rs3 rs4 : Reg) (h : Int), rd ≠ rs1 →
    h = ((s.x rs2 : Int) - s.x rd) * s.x rs4 % s.x rs3 →
    (s.x rs3 = 0 → exec (.crtstep rd rs1 rs2 rs3 rs4) s
      = .next { s with err := true, ecode := 2, ecmd := s.cur, busy := false }) ∧
    (s.x rs3 ≠ 0 → (2 ^ Config.W ≤ s.x rd + s.x rs1 * h ∨ 2 ^ Config.W ≤ s.x rs1 * s.x rs3) →
      exec (.crtstep rd rs1 rs2 rs3 rs4) s
        = .next { s with err := true, ecode := 4, ecmd := s.cur, busy := false }) ∧
    (s.x rs3 ≠ 0 → s.x rd + s.x rs1 * h < 2 ^ Config.W → s.x rs1 * s.x rs3 < 2 ^ Config.W →
      ∃ t : State, exec (.crtstep rd rs1 rs2 rs3 rs4) s = .next t ∧
        (t.x rd : Int) = s.x rd + s.x rs1 * h ∧ t.x rs1 = s.x rs1 * s.x rs3 ∧
        (∀ k : Reg, k ≠ rd → k ≠ rs1 → t.x k = s.x k) ∧
        t = { s with big := t.big, busy := false, done := true })

/-- R203 (the law), R204: with coprime moduli and the right coefficient CRTSTEP completes, without overflow when the product
fits, and leaves the one number below `R * r_i` with the two residues. -/
def Obligations.CrtstepReconstructs : Prop :=
  ∀ (s : State) (rd rs1 rs2 rs3 rs4 : Reg), rd ≠ rs1 →
    1 ≤ s.x rs1 → s.x rd < s.x rs1 → 1 ≤ s.x rs3 → Nat.gcd (s.x rs1) (s.x rs3) = 1 →
    s.x rs1 * s.x rs4 % s.x rs3 = 1 % s.x rs3 → s.x rs1 * s.x rs3 < 2 ^ Config.W →
    ∃ t : State, exec (.crtstep rd rs1 rs2 rs3 rs4) s = .next t ∧ t.err = s.err ∧
      t.x rs1 = s.x rs1 * s.x rs3 ∧ t.x rd < s.x rs1 * s.x rs3 ∧
      t.x rd % s.x rs1 = s.x rd ∧ t.x rd % s.x rs3 = s.x rs2 % s.x rs3 ∧
      ∀ y : Nat, y < s.x rs1 * s.x rs3 → y % s.x rs1 = s.x rd → y % s.x rs3 = s.x rs2 % s.x rs3 → y = t.x rd

/-- R202, R203: the two-prime Chinese-remainder decryption equals the direct one: with the residues MODEXP leaves and the key's
`qInv`, CRTSTEP leaves `c^d mod p*q`. -/
def Obligations.CrtDecryptionEqualsDirect : Prop :=
  ∀ (s : State) (rd rs1 rs2 rs3 rs4 : Reg) (c d p q : Nat), rd ≠ rs1 →
    p.Prime → q.Prime → p ≠ q → 1 ≤ d % (p - 1) → 1 ≤ d % (q - 1) → p * q < 2 ^ Config.W →
    s.x rd = c ^ (d % (q - 1)) % q → s.x rs1 = q → s.x rs2 = c ^ (d % (p - 1)) % p → s.x rs3 = p →
    q * s.x rs4 % p = 1 →
    ∃ t : State, exec (.crtstep rd rs1 rs2 rs3 rs4) s = .next t ∧ t.x rd = c ^ d % (p * q) ∧ t.x rs1 = p * q

/-- R202, R203: one more prime. From `c^d` modulo the product `R` combined so far, CRTSTEP with the residue MODEXP leaves for the
prime `r` and the coefficient `R^-1 mod r` leaves `c^d` modulo `R * r`: the step of the induction over the factors of a
multi-prime key. -/
def Obligations.CrtstepAddsOnePrime : Prop :=
  ∀ (s : State) (rd rs1 rs2 rs3 rs4 : Reg) (c d : Nat), rd ≠ rs1 →
    (s.x rs3).Prime → Nat.gcd (s.x rs1) (s.x rs3) = 1 → 1 ≤ s.x rs1 → 1 ≤ d % (s.x rs3 - 1) →
    s.x rs1 * s.x rs3 < 2 ^ Config.W → s.x rd = c ^ d % s.x rs1 → s.x rs2 = c ^ (d % (s.x rs3 - 1)) % s.x rs3 →
    s.x rs1 * s.x rs4 % s.x rs3 = 1 →
    ∃ t : State, exec (.crtstep rd rs1 rs2 rs3 rs4) s = .next t ∧
      t.x rd = c ^ d % (s.x rs1 * s.x rs3) ∧ t.x rs1 = s.x rs1 * s.x rs3

/-! ### MRROUND and MRTEST -/

/-- R150, R151, R152: MRROUND, every case. -/
def Obligations.MrroundOutcome : Prop :=
  ∀ (s : State) (rs1 rs2 : Reg),
    (s.x rs1 ∈ [2, 3, 5, 7] → exec (.mrround rs1 rs2) s = .next { s with v := true, busy := false, done := true }) ∧
    (s.x rs1 ∈ [0, 1, 4, 6, 8, 9] →
      exec (.mrround rs1 rs2) s = .next { s with v := false, busy := false, done := true }) ∧
    (10 ≤ s.x rs1 → (s.x rs2 < 2 ∨ s.x rs1 - 2 < s.x rs2) →
      exec (.mrround rs1 rs2) s = .next { s with err := true, ecode := 2, ecmd := s.cur, busy := false }) ∧
    (10 ≤ s.x rs1 → 2 ≤ s.x rs2 → s.x rs2 ≤ s.x rs1 - 2 →
      ∃ b : Bool, (b = true ↔ ¬ IsWitness (s.x rs1) (s.x rs2)) ∧
        exec (.mrround rs1 rs2) s = .next { s with v := b, busy := false, done := true })

/-- R155, R152, R232: MRTEST below 10 uses the shortcuts and no draw; from 10 on, with an answer in the range for every round
still to make, it completes after the first composite witness or after all rounds, and consumes exactly the answers it used.
`n` is how many rounds are still to make (log 7). -/
def Obligations.MrtestOutcome : Prop :=
  ∀ (s : State) (rs1 : Reg) (imm12 : BitVec 12) (n : Nat), n = imm12.toNat - s.mrPassed →
    (s.x rs1 ∈ [2, 3, 5, 7] → exec (.mrtest rs1 imm12) s = .next { s with v := true, busy := false, done := true }) ∧
    (s.x rs1 ∈ [0, 1, 4, 6, 8, 9] →
      exec (.mrtest rs1 imm12) s = .next { s with v := false, busy := false, done := true }) ∧
    (10 ≤ s.x rs1 → n ≤ s.source.length →
      (∀ a ∈ s.source.take n, 2 ≤ a ∧ a ≤ s.x rs1 - 2 ∧ ¬ IsWitness (s.x rs1) a) →
      exec (.mrtest rs1 imm12) s
        = .next { s with v := true, busy := false, done := true, source := s.source.drop n }) ∧
    (10 ≤ s.x rs1 → ∀ (k : Nat) (b : Nat), k < n → s.source[k]? = some b →
      2 ≤ b → b ≤ s.x rs1 - 2 → IsWitness (s.x rs1) b →
      (∀ a ∈ s.source.take k, 2 ≤ a ∧ a ≤ s.x rs1 - 2 ∧ ¬ IsWitness (s.x rs1) a) →
      exec (.mrtest rs1 imm12) s
        = .next { s with v := false, busy := false, done := true, source := s.source.drop (k + 1) })

/-- R231: an MRTEST whose draw is not answered stays in execution. With no answer at all nothing changes; with too few answers,
none of them showing the candidate composite, the answers are used up and the rounds they decided stay decided (log 7). -/
def Obligations.MrtestBlocksWithoutAnswers : Prop :=
  ∀ (s : State) (rs1 : Reg) (imm12 : BitVec 12), 10 ≤ s.x rs1 →
    (s.mrPassed < imm12.toNat → s.source = [] → exec (.mrtest rs1 imm12) s = .next s) ∧
    (s.source.length < imm12.toNat - s.mrPassed → (∀ a ∈ s.source, 2 ≤ a ∧ a ≤ s.x rs1 - 2) →
      (∀ a ∈ s.source, ¬ IsWitness (s.x rs1) a) →
      exec (.mrtest rs1 imm12) s = .next { s with mrPassed := s.mrPassed + s.source.length, source := [] })

/-- R157: a prime from 11 on passes every MRROUND with a legal witness, and every MRTEST that has as many answers as rounds to
make, whatever the answers are. -/
def Obligations.PrimesPassMillerRabin : Prop :=
  ∀ (s : State) (rs1 : Reg), (s.x rs1).Prime → 10 ≤ s.x rs1 →
    (∀ rs2 : Reg, 2 ≤ s.x rs2 → s.x rs2 ≤ s.x rs1 - 2 →
      exec (.mrround rs1 rs2) s = .next { s with v := true, busy := false, done := true }) ∧
    (∀ imm12 : BitVec 12, imm12.toNat - s.mrPassed ≤ s.source.length →
      exec (.mrtest rs1 imm12) s
        = .next { s with v := true, busy := false, done := true,
                         source := s.source.drop (imm12.toNat - s.mrPassed) })

/-- R230: an answered draw lies in its range, and an answer in the range is taken as it is (how another raw number is mapped is the
model's choice: log 6). The second clause is the model's choice, not the spec's, which gives the source no queue: the entry
`supply` appends one answer to the model's queue, whether or not a draw is pending (log 6), and moves the host's index on (log 8). -/
def Obligations.DrawLiesInItsRange : Prop :=
  (∀ lo hi raw : Nat, lo ≤ hi →
    lo ≤ drawFrom lo hi raw ∧ drawFrom lo hi raw ≤ hi ∧ (lo ≤ raw → raw ≤ hi → drawFrom lo hi raw = raw)) ∧
  (∀ (s : State) (raw : Nat), s.env[s.epc]? = some (.supply raw) →
    step s = .next { s with source := s.source ++ [raw], epc := s.epc + 1 })

/-! ### LUCAS -/

/-- R160, R161: the shortcuts, even numbers and perfect squares. -/
def Obligations.LucasShortcutsEvenAndSquares : Prop :=
  ∀ (s : State) (rs1 : Reg),
    (s.x rs1 ∈ [2, 3, 5, 7] → exec (.lucas rs1) s = .next { s with v := true, busy := false, done := true }) ∧
    (s.x rs1 ∈ [0, 1, 4, 6, 8, 9] → exec (.lucas rs1) s = .next { s with v := false, busy := false, done := true }) ∧
    (10 ≤ s.x rs1 → (s.x rs1 % 2 = 0 ∨ ∃ k : Nat, k * k = s.x rs1) →
      exec (.lucas rs1) s = .next { s with v := false, busy := false, done := true })

/-- R160, R163, R165: for odd `n >= 11` that is no square, with `D` the first trial discriminant that ends the search, LUCAS
rejects if its Jacobi symbol is 0 and otherwise accepts exactly when `U_{n+1} ≡ 0 (mod n)` for `Q = (1 - D) / 4`. Either value
of the open parameter (log 5). -/
def Obligations.LucasOutcome : Prop :=
  ∀ (s : State) (rs1 : Reg) (k : Nat) (d : Int), 11 ≤ s.x rs1 → s.x rs1 % 2 = 1 → (¬ ∃ r : Nat, r * r = s.x rs1) →
    d = trialD s.lucasFirst k → EndsSearch d (s.x rs1) →
    (∀ j : Nat, j < k → ¬ EndsSearch (trialD s.lucasFirst j) (s.x rs1)) →
    ∃ b : Bool, exec (.lucas rs1) s = .next { s with v := b, busy := false, done := true } ∧
      (b = true ↔ jacobiSym d (s.x rs1) = -1 ∧ lucasSeq ((1 - d) / 4) (s.x rs1 + 1) % (s.x rs1 : Int) = 0)

/-- R164: for odd `n >= 11` the search ends within `(n - 1) / 2` trials, at the first trial whose Jacobi symbol is not 1; the gcd
condition never passes a trial over. -/
def Obligations.LucasSearchEnds : Prop :=
  ∀ (f : Config.LucasFirst) (n : Nat), 11 ≤ n → n % 2 = 1 →
    ∃ k : Nat, k < (n - 1) / 2 ∧ (∀ j : Nat, j < k → jacobiSym (trialD f j) n = 1) ∧
      ((jacobiSym (trialD f k) n = 0 ∧ lucasSearch n ((n - 1) / 2) (Config.lucasD f) = .rejected) ∨
       (jacobiSym (trialD f k) n = -1 ∧ Nat.gcd n ((1 - trialD f k) / 4).natAbs = 1 ∧
        lucasSearch n ((n - 1) / 2) (Config.lucasD f) = .found (trialD f k)))

/-- R165: `LucasU(n, D)` is `U_{n+1} mod n` of the linear recurrence with `Q = (1 - D) / 4`. -/
def Obligations.LucasUIsTheSequence : Prop :=
  ∀ (n : Nat) (d : Int), 11 ≤ n → n % 2 = 1 → d % 4 = 1 →
    lucasU n d = lucasSeq ((1 - d) / 4) (n + 1) % (n : Int)

/-- R167: with `LUCAS_D_FIRST = -3`, LUCAS accepts every odd `n >= 11` that is no square and has `n mod 3 = 2`. -/
def Obligations.LiteralDiscriminantAcceptsTwoModThree : Prop :=
  ∀ (s : State) (rs1 : Reg), s.lucasFirst = .minusThree → 11 ≤ s.x rs1 → s.x rs1 % 2 = 1 →
    (¬ ∃ r : Nat, r * r = s.x rs1) → s.x rs1 % 3 = 2 →
    exec (.lucas rs1) s = .next { s with v := true, busy := false, done := true }

/-! ### JACOBI and ISSQR -/

/-- R183, R182: JACOBI, every case; the symbol is the product of Legendre symbols. -/
def Obligations.JacobiOutcome : Prop :=
  ∀ (s : State) (rs1 rs3 : Reg) (sa : Bool) (j : Int),
    j = jacobiSym (if sa = true then -(s.x rs1 : Int) else s.x rs1) (s.x rs3) →
    (s.x rs3 % 2 = 0 → exec (.jacobi rs1 rs3 sa) s
      = .next { s with err := true, ecode := 2, ecmd := s.cur, busy := false }) ∧
    (s.x rs3 % 2 = 1 → exec (.jacobi rs1 rs3 sa) s
      = .next { s with jac := (if j = 0 then 0b00 else if j = 1 then 0b01 else 0b11), busy := false, done := true })

/-- R182: `Jacobi(a, n) = 0` exactly when `Gcd(a mod n, n) > 1`, and `Jacobi(a, n) = Jacobi(a mod n, n)`, for odd `n`. -/
def Obligations.JacobiVanishesOnCommonFactor : Prop :=
  ∀ (a : Int) (n : Nat), n % 2 = 1 →
    (jacobi a n = 0 ↔ 1 < gcdOf (a % (n : Int)).toNat n) ∧ jacobi a n = jacobi (a % (n : Int)) n

/-- R187, R186: ISSQR sets `V` to "there is a natural `k` with `k * k = n`". -/
def Obligations.IssqrOutcome : Prop :=
  ∀ (s : State) (rs1 : Reg), ∃ b : Bool, (b = true ↔ ∃ k : Nat, k * k = s.x rs1) ∧
    exec (.issqr rs1) s = .next { s with v := b, busy := false, done := true }

/-- R181: the greatest common divisor. -/
def Obligations.GcdFollowsItsRule : Prop :=
  ∀ a b : Nat, gcdOf a 0 = a ∧ (b ≠ 0 → gcdOf a b = gcdOf b (a % b)) ∧
    gcdOf a b ∣ a ∧ gcdOf a b ∣ b ∧ ∀ c : Nat, c ∣ a → c ∣ b → c ∣ gcdOf a b

/-! ### All commands -/

/-- R214, R213: a command that faults writes the latch and clears `BUSY`, and nothing else; its code is 2, 3 or 4. -/
def Obligations.FaultsArePrecise : Prop :=
  ∀ (i : Instr) (s t : State), exec i s = .next t → s.err = false → t.err = true →
    (t.ecode = 2 ∨ t.ecode = 3 ∨ t.ecode = 4) ∧
      t = { s with err := true, ecode := t.ecode, ecmd := s.cur, busy := false }

/-- R211: MRTEST, LUCAS and ISSQR raise no fault on any operands. -/
def Obligations.VerifiersNeverFault : Prop :=
  ∀ (s t : State) (rs1 : Reg) (imm12 : BitVec 12),
    (exec (.mrtest rs1 imm12) s = .next t → t.err = s.err ∧ t.ecode = s.ecode ∧ t.ecmd = s.ecmd) ∧
    (exec (.lucas rs1) s = .next t → t.err = s.err ∧ t.ecode = s.ecode ∧ t.ecmd = s.ecmd) ∧
    (exec (.issqr rs1) s = .next t → t.err = s.err ∧ t.ecode = s.ecode ∧ t.ecmd = s.ecmd)

/-- R22: which big registers each command may change: `rd`; for CRTSTEP `rd` and `rs1`; for the others none. -/
def Obligations.CommandsWriteOnlyTheirDestinations : Prop :=
  ∀ (i : Instr) (s t : State) (k : Reg), exec i s = .next t →
    match i with
    | .modexp rd _ _ _ => k ≠ rd → t.x k = s.x k
    | .rsaep rd _ _ _ => k ≠ rd → t.x k = s.x k
    | .montred rd _ _ => k ≠ rd → t.x k = s.x k
    | .crtstep rd rs1 _ _ _ => k ≠ rd → k ≠ rs1 → t.x k = s.x k
    | .mrround _ _ => t.x k = s.x k
    | .mrtest _ _ => t.x k = s.x k
    | .lucas _ => t.x k = s.x k
    | .jacobi _ _ _ => t.x k = s.x k
    | .issqr _ => t.x k = s.x k

/-- R39: which command writes which flag. `V`: MRROUND, MRTEST, LUCAS, ISSQR; `JAC`: JACOBI; `OVR`, the enables: none; a command
that ends sets `DONE`, or latches a fault and keeps `DONE`, `V` and `JAC`. -/
def Obligations.CommandsWriteOnlyTheirFlags : Prop :=
  ∀ (i : Instr) (s t : State), exec i s = .next t →
    (match i with
     | .modexp _ _ _ _ => t.v = s.v ∧ t.jac = s.jac
     | .rsaep _ _ _ _ => t.v = s.v ∧ t.jac = s.jac
     | .montred _ _ _ => t.v = s.v ∧ t.jac = s.jac
     | .crtstep _ _ _ _ _ => t.v = s.v ∧ t.jac = s.jac
     | .mrround _ _ => t.jac = s.jac
     | .mrtest _ _ => t.jac = s.jac
     | .lucas _ => t.jac = s.jac
     | .jacobi _ _ _ => t.v = s.v
     | .issqr _ => t.jac = s.jac) ∧
    t.ovr = s.ovr ∧ t.ieDone = s.ieDone ∧ t.ieErr = s.ieErr ∧ t.cur = s.cur ∧
    (s.busy = true → t.busy = false →
      (t.done = true ∧ t.err = s.err ∧ t.ecode = s.ecode ∧ t.ecmd = s.ecmd) ∨
      (t.err = true ∧ t.ecmd = s.cur ∧ t.done = s.done ∧ t.v = s.v ∧ t.jac = s.jac))

/-- R230, R232, R31: no command touches the host's program or what it was answered, the parameters or the free values, and
only MRTEST consumes answers of the random source. -/
def Obligations.CommandsTouchNoOtherAgent : Prop :=
  ∀ (i : Instr) (s t : State), exec i s = .next t →
    t.env = s.env ∧ t.epc = s.epc ∧ t.answer = s.answer ∧ t.polled = s.polled ∧ t.limb = s.limb ∧
    t.gathered = s.gathered ∧ t.lucasFirst = s.lucasFirst ∧ t.rfBase = s.rfBase ∧ t.fresh = s.fresh ∧
    ((∀ (rs1 : Reg) (imm12 : BitVec 12), i ≠ .mrtest rs1 imm12) → t.source = s.source ∧ t.mrPassed = s.mrPassed) ∧
    ∃ k : Nat, t.source = s.source.drop k

/-! ### The whole machine -/

/-- R33, R37, R211, R213 (the last clause of the invariant is of the model's host: log 9): every step keeps the control invariant
`ControlInv`, from every state that has it. -/
def Obligations.EveryStepKeepsControlInvariant : Prop :=
  ∀ s t : State, ControlInv s → step s = .next t → ControlInv t

/-- The control invariant holds right after reset (R44). -/
def Obligations.ControlInvariantAtReset : Prop :=
  ControlInv State.reset

/-- R44: the values a hardware reset gives; the engine idle, the interrupt line low. -/
def Obligations.ResetValues : Prop :=
  State.reset.statusWord = 0 ∧ State.reset.ecmd = 0 ∧ State.reset.ctrlWord = 0 ∧ State.reset.busy = false ∧
  State.reset.irq = false ∧ idWord = 0x01020010

/-- R38, R65: from a state with a command in execution, a step after which it is still in execution has changed neither a big
register nor `CUR`, `V` or `JAC`. -/
def Obligations.NothingVisibleChangesWhileBusy : Prop :=
  ∀ s t : State, s.busy = true → step s = .next t → t.busy = true →
    t.big = s.big ∧ t.cur = s.cur ∧ t.v = s.v ∧ t.jac = s.jac

/-- R22, R64, R267: with no command in execution a big register changes only by a host write to one of its own limbs (LDR being
such writes) or by a hardware reset. -/
def Obligations.IdleRegistersChangeOnlyByTheHost : Prop :=
  ∀ (s t : State) (i : Reg), s.busy = false → step s = .next t → t.x i ≠ s.x i →
    (∃ (j : Fin Config.LIMBS) (w : Word),
        s.env[s.epc]? = some (.write (s.rfBase.val + 4 * Config.LIMBS * i.val + 4 * j.val) 4 w)) ∨
    (∃ r : BitVec Config.W, s.env[s.epc]? = some (.ldr i r)) ∨ s.env[s.epc]? = some .hardReset

/-- R217: while a fault is latched it stays the one latched: a step after which `ERR` is still 1 has kept `ECODE` and `ECMD`, and
no command has been accepted. -/
def Obligations.LatchedFaultStaysUntilCleared : Prop :=
  ∀ s t : State, ControlInv s → s.err = true → step s = .next t → t.err = true →
    t.ecode = s.ecode ∧ t.ecmd = s.ecmd ∧ t.busy = false

/-- R39, R32: `OVR` is set only by a dropped `CMD` write. -/
def Obligations.OverrunOnlyByDroppedCommand : Prop :=
  ∀ s t : State, step s = .next t → s.ovr = false → t.ovr = true →
    (s.busy = true ∨ s.err = true) ∧ ∃ c : Word, s.env[s.epc]? = some (.write 0x0000 4 c)

/-- R220: a command that ends leaves exactly one of `DONE` and `ERR` set, and the line is high exactly when that one is
enabled. -/
def Obligations.InterruptLineAfterCompletion : Prop :=
  ∀ (i : Instr) (s t : State), ControlInv s → s.busy = true → exec i s = .next t → t.busy = false →
    (t.done = true ∧ t.err = false ∧ t.irq = s.ieDone) ∨ (t.done = false ∧ t.err = true ∧ t.irq = s.ieErr)

/-- R270, R231: with weak fairness, and a random source that answers, a command in execution does not stay so for ever. -/
def Obligations.CommandsEndUnderFairness : Prop :=
  ∀ s : State, s.busy = true → WeaklyFair s → SourceAnswers s → ∃ n : Nat, (stateAt s n).busy = false

/-- R252, R23: under the launch premises what the big registers hold where nothing has been written does not matter: two runs that
start with the same written limbs agree, at every step, on every limb written by then and on everything else but what the host was
answered, a read of an unwritten limb being answered by any value. The premises, and which limbs count as written, are the model's
reading of R252 (log 25). That `CUR` agrees after a hardware reset too is the model's choice, not the spec's: free values are equal
in runs with equal counters (log 4, unsafe there). -/
def Obligations.UnwrittenRegistersDoNotMatter : Prop :=
  ∀ (w : Written) (s s' : State), LaunchPremises w s → s' = { s with big := s'.big } →
    (∀ (i : Reg) (j : Fin Config.LIMBS), w i j = true → limbOf (s'.bigReg i) j = limbOf (s.bigReg i) j) →
    ∀ n : Nat,
      (∀ (i : Reg) (j : Fin Config.LIMBS), writtenAt w s n i j = true →
        limbOf ((stateAt s' n).bigReg i) j = limbOf ((stateAt s n).bigReg i) j) ∧
      stateAt s' n = { stateAt s n with
        big := (stateAt s' n).big, answer := (stateAt s' n).answer, gathered := (stateAt s' n).gathered }

/-! ### Resets -/

/-- R45: the soft reset. Status, `ECMD` and `CTRL` take their reset values; idle, no register changes; busy, only the
destinations of the command in execution may change, and none if the word in execution is illegal (log 23). -/
def Obligations.SoftResetKeepsTheRegisters : Prop :=
  ∀ (s : State) (w : Word), s.env[s.epc]? = some (.write 0x000C 4 w) → w.getLsbD 31 = true →
    ∃ t : State, step s = .next t ∧ t.statusWord = 0 ∧ t.ecmd = 0 ∧ t.ctrlWord = 0 ∧ t.busy = false ∧ t.mrPassed = 0 ∧
      (s.busy = false → ∀ k : Reg, t.x k = s.x k) ∧
      (∀ (i : Instr) (k : Reg), s.busy = true → decode s.cur = .ok i →
        (match i with
         | .modexp rd _ _ _ => k ≠ rd
         | .rsaep rd _ _ _ => k ≠ rd
         | .montred rd _ _ => k ≠ rd
         | .crtstep rd rs1 _ _ _ => k ≠ rd ∧ k ≠ rs1
         | .mrround _ _ => True
         | .mrtest _ _ => True
         | .lucas _ => True
         | .jacobi _ _ _ => True
         | .issqr _ => True) → t.x k = s.x k) ∧
      (∀ (e : DecodeError) (k : Reg), s.busy = true → decode s.cur = .error e → t.x k = s.x k)

/-- R250: a hardware reset during a run puts the control state in the values of R44 with no draw pending. What the big registers
and `CUR` then hold is a free value (log 4). -/
def Obligations.HardwareResetClearsControl : Prop :=
  ∀ s : State, s.env[s.epc]? = some .hardReset →
    ∃ t : State, step s = .next t ∧ t.statusWord = 0 ∧ t.ecmd = 0 ∧ t.ctrlWord = 0 ∧ t.busy = false ∧ t.irq = false ∧
      t.mrPassed = 0

/-! ### The host window -/

/-- R12, R60, R67: a host read is one step that answers and has no side effect, a host write one step that does what the write does
and answers; that the answer is kept in `answer` (log 12) and that the step moves the host's index on (log 8) is the model's choice.
R64, R62: while idle, a limb reads as its 32 bits of the register; writing it replaces those bits and changes no other limb and
nothing else. -/
def Obligations.LimbAccessWhileIdle : Prop :=
  (∀ (s : State) (addr size : Nat) (w : Word),
    (s.env[s.epc]? = some (.read addr size) →
      step s = .next { s with answer := some (s.readAnswer addr size), epc := s.epc + 1 }) ∧
    (s.env[s.epc]? = some (.write addr size w) →
      step s = .next { s.hostWrite addr size w with answer := some (s.writeAnswer addr size), epc := s.epc + 1 })) ∧
  (∀ (s : State) (i : Reg) (j : Fin Config.LIMBS) (w : Word) (a : Nat), s.busy = false →
    a = s.rfBase.val + 4 * Config.LIMBS * i.val + 4 * j.val →
    s.readAnswer a 4 = .data (BitVec.ofNat 32 (s.x i / 2 ^ (32 * j.val))) ∧ s.writeAnswer a 4 = .written ∧
    (s.hostWrite a 4 w).readAnswer a 4 = .data w ∧
    (∀ (i' : Reg) (j' : Fin Config.LIMBS), (i', j') ≠ (i, j) →
      (s.hostWrite a 4 w).readAnswer (s.rfBase.val + 4 * Config.LIMBS * i'.val + 4 * j'.val) 4
        = s.readAnswer (s.rfBase.val + 4 * Config.LIMBS * i'.val + 4 * j'.val) 4) ∧
    s.hostWrite a 4 w = { s with big := (s.hostWrite a 4 w).big })

/-- R62: a big register is the sum of its limbs, limb 0, at the lowest address, least significant; a limb read is the 32-bit
number itself. -/
def Obligations.RegisterIsTheSumOfItsLimbs : Prop :=
  ∀ (s : State) (i : Reg), s.busy = false →
    (∀ j : Fin Config.LIMBS,
      s.readAnswer (s.rfBase.val + 4 * Config.LIMBS * i.val + 4 * j.val) 4 = .data (limbOf (s.bigReg i) j)) ∧
    s.x i = ∑ j : Fin Config.LIMBS, (limbOf (s.bigReg i) j).toNat * 2 ^ (32 * j.val)

/-- R65: while busy, every access at or above `RF_BASE` is refused and changes nothing; the control registers stay
accessible. -/
def Obligations.RegisterWindowClosedWhileBusy : Prop :=
  ∀ (s : State) (addr size : Nat) (w : Word), s.busy = true →
    (s.rfBase.val ≤ addr →
      s.readAnswer addr size = .busError ∧ s.writeAnswer addr size = .busError ∧ s.hostWrite addr size w = s) ∧
    (∀ a ∈ [0x0000, 0x0004, 0x0008, 0x000C, 0x0010], s.writeAnswer a 4 = .written ∧ ∃ d : Word, s.readAnswer a 4 = .data d)

/-- R63, R66, R61: an access that is misaligned, of another size than 4, to a reserved address or outside the window is refused
and changes nothing. -/
def Obligations.RefusedAccessesChangeNothing : Prop :=
  ∀ (s : State) (addr size : Nat) (w : Word),
    (size ≠ 4 ∨ addr % 4 ≠ 0 ∨ (0x0014 ≤ addr ∧ addr < s.rfBase.val) ∨
      s.rfBase.val + 4 * Config.LIMBS * Config.NREG ≤ addr) →
    s.readAnswer addr size = .busError ∧ s.writeAnswer addr size = .busError ∧ s.hostWrite addr size w = s

/-- R33, the table: the bits of `STATUS`. -/
def Obligations.StatusWordBits : Prop :=
  ∀ s : State, s.readAnswer 0x0004 4 = .data s.statusWord ∧
    s.statusWord.getLsbD 0 = s.busy ∧ s.statusWord.getLsbD 1 = s.done ∧ s.statusWord.getLsbD 2 = s.err ∧
    s.statusWord.getLsbD 3 = s.ovr ∧ s.statusWord.getLsbD 4 = s.v ∧ s.statusWord.extractLsb' 5 2 = s.jac ∧
    s.statusWord.getLsbD 7 = false ∧ s.statusWord.extractLsb' 8 8 = s.ecode ∧ s.statusWord.extractLsb' 16 16 = 0

/-- R33: a write to `STATUS` clears `DONE`, the fault latch, `OVR` where it writes a 1, and does nothing else. -/
def Obligations.StatusWriteOneToClear : Prop :=
  ∀ (s : State) (w : Word),
    s.hostWrite 0x0004 4 w =
      { s with done := s.done && !w.getLsbD 1, err := s.err && !w.getLsbD 2,
               ecode := (if w.getLsbD 2 then 0 else s.ecode), ecmd := (if w.getLsbD 2 then 0 else s.ecmd),
               ovr := s.ovr && !w.getLsbD 3 }

/-- R34, R35: `ECMD`, `CTRL` and `ID`: what they read as, and what a write does. -/
def Obligations.ControlRegisterAccess : Prop :=
  ∀ (s : State) (w : Word),
    s.readAnswer 0x0008 4 = .data s.ecmd ∧ s.hostWrite 0x0008 4 w = s ∧
    s.readAnswer 0x0010 4 = .data 0x01020010 ∧ s.hostWrite 0x0010 4 w = s ∧
    (∃ c : Word, s.readAnswer 0x000C 4 = .data c ∧ c.getLsbD 0 = s.ieDone ∧ c.getLsbD 1 = s.ieErr ∧
      c.extractLsb' 2 30 = 0) ∧
    (w.getLsbD 31 = false → s.hostWrite 0x000C 4 w = { s with ieDone := w.getLsbD 0, ieErr := w.getLsbD 1 })

/-- R97, R68: the limb writes `LDR xi, v` expands to, made one after another on an idle engine, leave exactly `x[i] = v` changed; the
entry `ldr` of the environment's program is such writes, each a step (log 9), LIMBS of them in all; while busy each is answered
`BusError` and changes nothing else but the host's place. -/
def Obligations.LdrExpansionLoadsTheRegister : Prop :=
  (∀ (s : State) (i : Reg) (v : BitVec Config.W), s.busy = false →
    ∃ t : State,
      (ldrWrites s.rfBase i v).foldl
        (fun u op => match op with
          | .write a n w => u.hostWrite a n w
          | _ => u) s = t ∧
      t.bigReg i = v ∧ (∀ k : Reg, k ≠ i → t.x k = s.x k) ∧ t = { s with big := t.big } ∧
      (s.env[s.epc]? = some (.ldr i v) → s.limb.val = 0 →
        stateAt s Config.LIMBS = { t with answer := some .written, epc := s.epc + 1 })) ∧
  (∀ (s : State) (i : Reg) (v : BitVec Config.W) (a : Nat), s.env[s.epc]? = some (.ldr i v) →
    a = s.rfBase.val + 4 * Config.LIMBS * i.val + 4 * s.limb.val →
    step s = .next { s.hostWrite a 4 (limbOf v s.limb) with
      answer := some (s.writeAnswer a 4), limb := s.limb + 1,
      epc := if s.limb.val + 1 = Config.LIMBS then s.epc + 1 else s.epc } ∧
    (s.busy = true → step s = .next { s with
      answer := some .busError, limb := s.limb + 1,
      epc := if s.limb.val + 1 = Config.LIMBS then s.epc + 1 else s.epc }))

/-- R97, R68: `RDR xi` on an idle engine hands the host, after LIMBS limb reads, each a step (log 9), the register's value, which is
the sum of its limb reads, and changes nothing of the engine; while busy each read is answered `BusError` and changes nothing else
but the host's place and sum. -/
def Obligations.RdrReadsTheRegister : Prop :=
  (∀ (s : State) (i : Reg), s.busy = false → s.env[s.epc]? = some (.rdr i) → s.limb.val = 0 →
    (∃ a : BusAnswer,
      stateAt s Config.LIMBS = { s with answer := some a, gathered := s.x i, epc := s.epc + 1 }) ∧
    s.x i = ∑ j : Fin Config.LIMBS,
      (match s.readAnswer (s.rfBase.val + 4 * Config.LIMBS * i.val + 4 * j.val) 4 with
        | .data w => w.toNat
        | _ => 0) * 2 ^ (32 * j.val)) ∧
  (∀ (s : State) (i : Reg), s.env[s.epc]? = some (.rdr i) → s.busy = true →
    step s = .next { s with
      answer := some .busError, gathered := (if s.limb.val = 0 then 0 else s.gathered), limb := s.limb + 1,
      epc := if s.limb.val + 1 = Config.LIMBS then s.epc + 1 else s.epc })

/-- R97: `WAIT` on an idle engine hands the host the status word it then tests, and the branches follow its bits 2 and 4. The index
and the two fields in which the host keeps what it read are the model's (log 8, 10, 12). -/
def Obligations.WaitAndBranchFollowStatus : Prop :=
  ∀ (s : State) (l : Nat),
    (s.env[s.epc]? = some .wait → s.busy = false →
      step s = .next { s with answer := some (.data s.statusWord), polled := s.statusWord, epc := s.epc + 1 }) ∧
    (s.env[s.epc]? = some (.berr l) →
      step s = .next { s with epc := if s.polled.getLsbD 2 then l else s.epc + 1 }) ∧
    (s.env[s.epc]? = some (.bv l) →
      step s = .next { s with epc := if s.polled.getLsbD 4 then l else s.epc + 1 }) ∧
    (s.env[s.epc]? = some (.bnv l) →
      step s = .next { s with epc := if s.polled.getLsbD 4 then s.epc + 1 else l })
end

