-- ==== Sys2Proof/Laws/State.lean ====
section
/-! SUPPORT. What each update of State does to each field: one lemma a field, true by unfolding the update once, so that no
later proof unfolds a record update. -/

namespace Sys2Proof.Machine

variable (s : State)

/-! ### `setBig` -/

@[simp] theorem State.setBig_big (i : Reg) (r : BitVec Config.W) : (s.setBig i r).big = s.big.set i.val r := rfl
@[simp] theorem State.setBig_cur (i : Reg) (r : BitVec Config.W) : (s.setBig i r).cur = s.cur := rfl
@[simp] theorem State.setBig_busy (i : Reg) (r : BitVec Config.W) : (s.setBig i r).busy = s.busy := rfl
@[simp] theorem State.setBig_done (i : Reg) (r : BitVec Config.W) : (s.setBig i r).done = s.done := rfl
@[simp] theorem State.setBig_err (i : Reg) (r : BitVec Config.W) : (s.setBig i r).err = s.err := rfl
@[simp] theorem State.setBig_ovr (i : Reg) (r : BitVec Config.W) : (s.setBig i r).ovr = s.ovr := rfl
@[simp] theorem State.setBig_v (i : Reg) (r : BitVec Config.W) : (s.setBig i r).v = s.v := rfl
@[simp] theorem State.setBig_jac (i : Reg) (r : BitVec Config.W) : (s.setBig i r).jac = s.jac := rfl
@[simp] theorem State.setBig_ecode (i : Reg) (r : BitVec Config.W) : (s.setBig i r).ecode = s.ecode := rfl
@[simp] theorem State.setBig_ecmd (i : Reg) (r : BitVec Config.W) : (s.setBig i r).ecmd = s.ecmd := rfl
@[simp] theorem State.setBig_ieDone (i : Reg) (r : BitVec Config.W) : (s.setBig i r).ieDone = s.ieDone := rfl
@[simp] theorem State.setBig_ieErr (i : Reg) (r : BitVec Config.W) : (s.setBig i r).ieErr = s.ieErr := rfl
@[simp] theorem State.setBig_mrPassed (i : Reg) (r : BitVec Config.W) : (s.setBig i r).mrPassed = s.mrPassed := rfl
@[simp] theorem State.setBig_source (i : Reg) (r : BitVec Config.W) : (s.setBig i r).source = s.source := rfl
@[simp] theorem State.setBig_lucasFirst (i : Reg) (r : BitVec Config.W) : (s.setBig i r).lucasFirst = s.lucasFirst := rfl
@[simp] theorem State.setBig_rfBase (i : Reg) (r : BitVec Config.W) : (s.setBig i r).rfBase = s.rfBase := rfl
@[simp] theorem State.setBig_fresh (i : Reg) (r : BitVec Config.W) : (s.setBig i r).fresh = s.fresh := rfl
@[simp] theorem State.setBig_env (i : Reg) (r : BitVec Config.W) : (s.setBig i r).env = s.env := rfl
@[simp] theorem State.setBig_epc (i : Reg) (r : BitVec Config.W) : (s.setBig i r).epc = s.epc := rfl
@[simp] theorem State.setBig_answer (i : Reg) (r : BitVec Config.W) : (s.setBig i r).answer = s.answer := rfl
@[simp] theorem State.setBig_polled (i : Reg) (r : BitVec Config.W) : (s.setBig i r).polled = s.polled := rfl
@[simp] theorem State.setBig_limb (i : Reg) (r : BitVec Config.W) : (s.setBig i r).limb = s.limb := rfl
@[simp] theorem State.setBig_gathered (i : Reg) (r : BitVec Config.W) : (s.setBig i r).gathered = s.gathered := rfl

/-! ### `setX` -/

@[simp] theorem State.setX_big (i : Reg) (n : Nat) : (s.setX i n).big = s.big.set i.val (BitVec.ofNat Config.W n) := rfl
@[simp] theorem State.setX_cur (i : Reg) (n : Nat) : (s.setX i n).cur = s.cur := rfl
@[simp] theorem State.setX_busy (i : Reg) (n : Nat) : (s.setX i n).busy = s.busy := rfl
@[simp] theorem State.setX_done (i : Reg) (n : Nat) : (s.setX i n).done = s.done := rfl
@[simp] theorem State.setX_err (i : Reg) (n : Nat) : (s.setX i n).err = s.err := rfl
@[simp] theorem State.setX_ovr (i : Reg) (n : Nat) : (s.setX i n).ovr = s.ovr := rfl
@[simp] theorem State.setX_v (i : Reg) (n : Nat) : (s.setX i n).v = s.v := rfl
@[simp] theorem State.setX_jac (i : Reg) (n : Nat) : (s.setX i n).jac = s.jac := rfl
@[simp] theorem State.setX_ecode (i : Reg) (n : Nat) : (s.setX i n).ecode = s.ecode := rfl
@[simp] theorem State.setX_ecmd (i : Reg) (n : Nat) : (s.setX i n).ecmd = s.ecmd := rfl
@[simp] theorem State.setX_ieDone (i : Reg) (n : Nat) : (s.setX i n).ieDone = s.ieDone := rfl
@[simp] theorem State.setX_ieErr (i : Reg) (n : Nat) : (s.setX i n).ieErr = s.ieErr := rfl
@[simp] theorem State.setX_mrPassed (i : Reg) (n : Nat) : (s.setX i n).mrPassed = s.mrPassed := rfl
@[simp] theorem State.setX_source (i : Reg) (n : Nat) : (s.setX i n).source = s.source := rfl
@[simp] theorem State.setX_lucasFirst (i : Reg) (n : Nat) : (s.setX i n).lucasFirst = s.lucasFirst := rfl
@[simp] theorem State.setX_rfBase (i : Reg) (n : Nat) : (s.setX i n).rfBase = s.rfBase := rfl
@[simp] theorem State.setX_fresh (i : Reg) (n : Nat) : (s.setX i n).fresh = s.fresh := rfl
@[simp] theorem State.setX_env (i : Reg) (n : Nat) : (s.setX i n).env = s.env := rfl
@[simp] theorem State.setX_epc (i : Reg) (n : Nat) : (s.setX i n).epc = s.epc := rfl
@[simp] theorem State.setX_answer (i : Reg) (n : Nat) : (s.setX i n).answer = s.answer := rfl
@[simp] theorem State.setX_polled (i : Reg) (n : Nat) : (s.setX i n).polled = s.polled := rfl
@[simp] theorem State.setX_limb (i : Reg) (n : Nat) : (s.setX i n).limb = s.limb := rfl
@[simp] theorem State.setX_gathered (i : Reg) (n : Nat) : (s.setX i n).gathered = s.gathered := rfl

/-! ### `accept` -/

@[simp] theorem State.accept_big (c : Word) : (s.accept c).big = s.big := rfl
@[simp] theorem State.accept_cur (c : Word) : (s.accept c).cur = c := rfl
@[simp] theorem State.accept_busy (c : Word) : (s.accept c).busy = true := rfl
@[simp] theorem State.accept_done (c : Word) : (s.accept c).done = false := rfl
@[simp] theorem State.accept_err (c : Word) : (s.accept c).err = s.err := rfl
@[simp] theorem State.accept_ovr (c : Word) : (s.accept c).ovr = s.ovr := rfl
@[simp] theorem State.accept_v (c : Word) : (s.accept c).v = s.v := rfl
@[simp] theorem State.accept_jac (c : Word) : (s.accept c).jac = s.jac := rfl
@[simp] theorem State.accept_ecode (c : Word) : (s.accept c).ecode = s.ecode := rfl
@[simp] theorem State.accept_ecmd (c : Word) : (s.accept c).ecmd = s.ecmd := rfl
@[simp] theorem State.accept_ieDone (c : Word) : (s.accept c).ieDone = s.ieDone := rfl
@[simp] theorem State.accept_ieErr (c : Word) : (s.accept c).ieErr = s.ieErr := rfl
@[simp] theorem State.accept_mrPassed (c : Word) : (s.accept c).mrPassed = 0 := rfl
@[simp] theorem State.accept_source (c : Word) : (s.accept c).source = s.source := rfl
@[simp] theorem State.accept_lucasFirst (c : Word) : (s.accept c).lucasFirst = s.lucasFirst := rfl
@[simp] theorem State.accept_rfBase (c : Word) : (s.accept c).rfBase = s.rfBase := rfl
@[simp] theorem State.accept_fresh (c : Word) : (s.accept c).fresh = s.fresh := rfl
@[simp] theorem State.accept_env (c : Word) : (s.accept c).env = s.env := rfl
@[simp] theorem State.accept_epc (c : Word) : (s.accept c).epc = s.epc := rfl
@[simp] theorem State.accept_answer (c : Word) : (s.accept c).answer = s.answer := rfl
@[simp] theorem State.accept_polled (c : Word) : (s.accept c).polled = s.polled := rfl
@[simp] theorem State.accept_limb (c : Word) : (s.accept c).limb = s.limb := rfl
@[simp] theorem State.accept_gathered (c : Word) : (s.accept c).gathered = s.gathered := rfl

/-! ### `raiseFault` -/

@[simp] theorem State.raiseFault_big (f : EngineFault) : (s.raiseFault f).big = s.big := rfl
@[simp] theorem State.raiseFault_cur (f : EngineFault) : (s.raiseFault f).cur = s.cur := rfl
@[simp] theorem State.raiseFault_busy (f : EngineFault) : (s.raiseFault f).busy = false := rfl
@[simp] theorem State.raiseFault_done (f : EngineFault) : (s.raiseFault f).done = s.done := rfl
@[simp] theorem State.raiseFault_err (f : EngineFault) : (s.raiseFault f).err = true := rfl
@[simp] theorem State.raiseFault_ovr (f : EngineFault) : (s.raiseFault f).ovr = s.ovr := rfl
@[simp] theorem State.raiseFault_v (f : EngineFault) : (s.raiseFault f).v = s.v := rfl
@[simp] theorem State.raiseFault_jac (f : EngineFault) : (s.raiseFault f).jac = s.jac := rfl
@[simp] theorem State.raiseFault_ecode (f : EngineFault) : (s.raiseFault f).ecode = faultCode f := rfl
@[simp] theorem State.raiseFault_ecmd (f : EngineFault) : (s.raiseFault f).ecmd = s.cur := rfl
@[simp] theorem State.raiseFault_ieDone (f : EngineFault) : (s.raiseFault f).ieDone = s.ieDone := rfl
@[simp] theorem State.raiseFault_ieErr (f : EngineFault) : (s.raiseFault f).ieErr = s.ieErr := rfl
@[simp] theorem State.raiseFault_mrPassed (f : EngineFault) : (s.raiseFault f).mrPassed = s.mrPassed := rfl
@[simp] theorem State.raiseFault_source (f : EngineFault) : (s.raiseFault f).source = s.source := rfl
@[simp] theorem State.raiseFault_lucasFirst (f : EngineFault) : (s.raiseFault f).lucasFirst = s.lucasFirst := rfl
@[simp] theorem State.raiseFault_rfBase (f : EngineFault) : (s.raiseFault f).rfBase = s.rfBase := rfl
@[simp] theorem State.raiseFault_fresh (f : EngineFault) : (s.raiseFault f).fresh = s.fresh := rfl
@[simp] theorem State.raiseFault_env (f : EngineFault) : (s.raiseFault f).env = s.env := rfl
@[simp] theorem State.raiseFault_epc (f : EngineFault) : (s.raiseFault f).epc = s.epc := rfl
@[simp] theorem State.raiseFault_answer (f : EngineFault) : (s.raiseFault f).answer = s.answer := rfl
@[simp] theorem State.raiseFault_polled (f : EngineFault) : (s.raiseFault f).polled = s.polled := rfl
@[simp] theorem State.raiseFault_limb (f : EngineFault) : (s.raiseFault f).limb = s.limb := rfl
@[simp] theorem State.raiseFault_gathered (f : EngineFault) : (s.raiseFault f).gathered = s.gathered := rfl

/-! ### `clearFault` -/

@[simp] theorem State.clearFault_big : (s.clearFault).big = s.big := rfl
@[simp] theorem State.clearFault_cur : (s.clearFault).cur = s.cur := rfl
@[simp] theorem State.clearFault_busy : (s.clearFault).busy = s.busy := rfl
@[simp] theorem State.clearFault_done : (s.clearFault).done = s.done := rfl
@[simp] theorem State.clearFault_err : (s.clearFault).err = false := rfl
@[simp] theorem State.clearFault_ovr : (s.clearFault).ovr = s.ovr := rfl
@[simp] theorem State.clearFault_v : (s.clearFault).v = s.v := rfl
@[simp] theorem State.clearFault_jac : (s.clearFault).jac = s.jac := rfl
@[simp] theorem State.clearFault_ecode : (s.clearFault).ecode = 0 := rfl
@[simp] theorem State.clearFault_ecmd : (s.clearFault).ecmd = 0 := rfl
@[simp] theorem State.clearFault_ieDone : (s.clearFault).ieDone = s.ieDone := rfl
@[simp] theorem State.clearFault_ieErr : (s.clearFault).ieErr = s.ieErr := rfl
@[simp] theorem State.clearFault_mrPassed : (s.clearFault).mrPassed = s.mrPassed := rfl
@[simp] theorem State.clearFault_source : (s.clearFault).source = s.source := rfl
@[simp] theorem State.clearFault_lucasFirst : (s.clearFault).lucasFirst = s.lucasFirst := rfl
@[simp] theorem State.clearFault_rfBase : (s.clearFault).rfBase = s.rfBase := rfl
@[simp] theorem State.clearFault_fresh : (s.clearFault).fresh = s.fresh := rfl
@[simp] theorem State.clearFault_env : (s.clearFault).env = s.env := rfl
@[simp] theorem State.clearFault_epc : (s.clearFault).epc = s.epc := rfl
@[simp] theorem State.clearFault_answer : (s.clearFault).answer = s.answer := rfl
@[simp] theorem State.clearFault_polled : (s.clearFault).polled = s.polled := rfl
@[simp] theorem State.clearFault_limb : (s.clearFault).limb = s.limb := rfl
@[simp] theorem State.clearFault_gathered : (s.clearFault).gathered = s.gathered := rfl

/-! ### `complete` -/

@[simp] theorem State.complete_big : (s.complete).big = s.big := rfl
@[simp] theorem State.complete_cur : (s.complete).cur = s.cur := rfl
@[simp] theorem State.complete_busy : (s.complete).busy = false := rfl
@[simp] theorem State.complete_done : (s.complete).done = true := rfl
@[simp] theorem State.complete_err : (s.complete).err = s.err := rfl
@[simp] theorem State.complete_ovr : (s.complete).ovr = s.ovr := rfl
@[simp] theorem State.complete_v : (s.complete).v = s.v := rfl
@[simp] theorem State.complete_jac : (s.complete).jac = s.jac := rfl
@[simp] theorem State.complete_ecode : (s.complete).ecode = s.ecode := rfl
@[simp] theorem State.complete_ecmd : (s.complete).ecmd = s.ecmd := rfl
@[simp] theorem State.complete_ieDone : (s.complete).ieDone = s.ieDone := rfl
@[simp] theorem State.complete_ieErr : (s.complete).ieErr = s.ieErr := rfl
@[simp] theorem State.complete_mrPassed : (s.complete).mrPassed = s.mrPassed := rfl
@[simp] theorem State.complete_source : (s.complete).source = s.source := rfl
@[simp] theorem State.complete_lucasFirst : (s.complete).lucasFirst = s.lucasFirst := rfl
@[simp] theorem State.complete_rfBase : (s.complete).rfBase = s.rfBase := rfl
@[simp] theorem State.complete_fresh : (s.complete).fresh = s.fresh := rfl
@[simp] theorem State.complete_env : (s.complete).env = s.env := rfl
@[simp] theorem State.complete_epc : (s.complete).epc = s.epc := rfl
@[simp] theorem State.complete_answer : (s.complete).answer = s.answer := rfl
@[simp] theorem State.complete_polled : (s.complete).polled = s.polled := rfl
@[simp] theorem State.complete_limb : (s.complete).limb = s.limb := rfl
@[simp] theorem State.complete_gathered : (s.complete).gathered = s.gathered := rfl

/-! ### `forget` -/

@[simp] theorem State.forget_big (i : Reg) : (s.forget i).big = s.big.set i.val (Config.freeBig s.fresh) := rfl
@[simp] theorem State.forget_cur (i : Reg) : (s.forget i).cur = s.cur := rfl
@[simp] theorem State.forget_busy (i : Reg) : (s.forget i).busy = s.busy := rfl
@[simp] theorem State.forget_done (i : Reg) : (s.forget i).done = s.done := rfl
@[simp] theorem State.forget_err (i : Reg) : (s.forget i).err = s.err := rfl
@[simp] theorem State.forget_ovr (i : Reg) : (s.forget i).ovr = s.ovr := rfl
@[simp] theorem State.forget_v (i : Reg) : (s.forget i).v = s.v := rfl
@[simp] theorem State.forget_jac (i : Reg) : (s.forget i).jac = s.jac := rfl
@[simp] theorem State.forget_ecode (i : Reg) : (s.forget i).ecode = s.ecode := rfl
@[simp] theorem State.forget_ecmd (i : Reg) : (s.forget i).ecmd = s.ecmd := rfl
@[simp] theorem State.forget_ieDone (i : Reg) : (s.forget i).ieDone = s.ieDone := rfl
@[simp] theorem State.forget_ieErr (i : Reg) : (s.forget i).ieErr = s.ieErr := rfl
@[simp] theorem State.forget_mrPassed (i : Reg) : (s.forget i).mrPassed = s.mrPassed := rfl
@[simp] theorem State.forget_source (i : Reg) : (s.forget i).source = s.source := rfl
@[simp] theorem State.forget_lucasFirst (i : Reg) : (s.forget i).lucasFirst = s.lucasFirst := rfl
@[simp] theorem State.forget_rfBase (i : Reg) : (s.forget i).rfBase = s.rfBase := rfl
@[simp] theorem State.forget_fresh (i : Reg) : (s.forget i).fresh = s.fresh + 1 := rfl
@[simp] theorem State.forget_env (i : Reg) : (s.forget i).env = s.env := rfl
@[simp] theorem State.forget_epc (i : Reg) : (s.forget i).epc = s.epc := rfl
@[simp] theorem State.forget_answer (i : Reg) : (s.forget i).answer = s.answer := rfl
@[simp] theorem State.forget_polled (i : Reg) : (s.forget i).polled = s.polled := rfl
@[simp] theorem State.forget_limb (i : Reg) : (s.forget i).limb = s.limb := rfl
@[simp] theorem State.forget_gathered (i : Reg) : (s.forget i).gathered = s.gathered := rfl

/-! ### `resetControl` -/

@[simp] theorem State.resetControl_big : (s.resetControl).big = s.big := rfl
@[simp] theorem State.resetControl_cur : (s.resetControl).cur = s.cur := rfl
@[simp] theorem State.resetControl_busy : (s.resetControl).busy = false := rfl
@[simp] theorem State.resetControl_done : (s.resetControl).done = false := rfl
@[simp] theorem State.resetControl_err : (s.resetControl).err = false := rfl
@[simp] theorem State.resetControl_ovr : (s.resetControl).ovr = false := rfl
@[simp] theorem State.resetControl_v : (s.resetControl).v = false := rfl
@[simp] theorem State.resetControl_jac : (s.resetControl).jac = 0 := rfl
@[simp] theorem State.resetControl_ecode : (s.resetControl).ecode = 0 := rfl
@[simp] theorem State.resetControl_ecmd : (s.resetControl).ecmd = 0 := rfl
@[simp] theorem State.resetControl_ieDone : (s.resetControl).ieDone = false := rfl
@[simp] theorem State.resetControl_ieErr : (s.resetControl).ieErr = false := rfl
@[simp] theorem State.resetControl_mrPassed : (s.resetControl).mrPassed = 0 := rfl
@[simp] theorem State.resetControl_source : (s.resetControl).source = s.source := rfl
@[simp] theorem State.resetControl_lucasFirst : (s.resetControl).lucasFirst = s.lucasFirst := rfl
@[simp] theorem State.resetControl_rfBase : (s.resetControl).rfBase = s.rfBase := rfl
@[simp] theorem State.resetControl_fresh : (s.resetControl).fresh = s.fresh := rfl
@[simp] theorem State.resetControl_env : (s.resetControl).env = s.env := rfl
@[simp] theorem State.resetControl_epc : (s.resetControl).epc = s.epc := rfl
@[simp] theorem State.resetControl_answer : (s.resetControl).answer = s.answer := rfl
@[simp] theorem State.resetControl_polled : (s.resetControl).polled = s.polled := rfl
@[simp] theorem State.resetControl_limb : (s.resetControl).limb = s.limb := rfl
@[simp] theorem State.resetControl_gathered : (s.resetControl).gathered = s.gathered := rfl

/-! ### `hardReset` -/

@[simp] theorem State.hardReset_big : (s.hardReset).big = Vector.ofFn fun i => Config.freeBig (s.fresh + i.val) := rfl
@[simp] theorem State.hardReset_cur : (s.hardReset).cur = Config.freeWord s.fresh := rfl
@[simp] theorem State.hardReset_busy : (s.hardReset).busy = false := rfl
@[simp] theorem State.hardReset_done : (s.hardReset).done = false := rfl
@[simp] theorem State.hardReset_err : (s.hardReset).err = false := rfl
@[simp] theorem State.hardReset_ovr : (s.hardReset).ovr = false := rfl
@[simp] theorem State.hardReset_v : (s.hardReset).v = false := rfl
@[simp] theorem State.hardReset_jac : (s.hardReset).jac = 0 := rfl
@[simp] theorem State.hardReset_ecode : (s.hardReset).ecode = 0 := rfl
@[simp] theorem State.hardReset_ecmd : (s.hardReset).ecmd = 0 := rfl
@[simp] theorem State.hardReset_ieDone : (s.hardReset).ieDone = false := rfl
@[simp] theorem State.hardReset_ieErr : (s.hardReset).ieErr = false := rfl
@[simp] theorem State.hardReset_mrPassed : (s.hardReset).mrPassed = 0 := rfl
@[simp] theorem State.hardReset_source : (s.hardReset).source = s.source := rfl
@[simp] theorem State.hardReset_lucasFirst : (s.hardReset).lucasFirst = s.lucasFirst := rfl
@[simp] theorem State.hardReset_rfBase : (s.hardReset).rfBase = s.rfBase := rfl
@[simp] theorem State.hardReset_fresh : (s.hardReset).fresh = s.fresh + Config.NREG := rfl
@[simp] theorem State.hardReset_env : (s.hardReset).env = s.env := rfl
@[simp] theorem State.hardReset_epc : (s.hardReset).epc = s.epc := rfl
@[simp] theorem State.hardReset_answer : (s.hardReset).answer = s.answer := rfl
@[simp] theorem State.hardReset_polled : (s.hardReset).polled = s.polled := rfl
@[simp] theorem State.hardReset_limb : (s.hardReset).limb = s.limb := rfl
@[simp] theorem State.hardReset_gathered : (s.hardReset).gathered = s.gathered := rfl

/-! ### `advance` -/

@[simp] theorem State.advance_big : (s.advance).big = s.big := rfl
@[simp] theorem State.advance_cur : (s.advance).cur = s.cur := rfl
@[simp] theorem State.advance_busy : (s.advance).busy = s.busy := rfl
@[simp] theorem State.advance_done : (s.advance).done = s.done := rfl
@[simp] theorem State.advance_err : (s.advance).err = s.err := rfl
@[simp] theorem State.advance_ovr : (s.advance).ovr = s.ovr := rfl
@[simp] theorem State.advance_v : (s.advance).v = s.v := rfl
@[simp] theorem State.advance_jac : (s.advance).jac = s.jac := rfl
@[simp] theorem State.advance_ecode : (s.advance).ecode = s.ecode := rfl
@[simp] theorem State.advance_ecmd : (s.advance).ecmd = s.ecmd := rfl
@[simp] theorem State.advance_ieDone : (s.advance).ieDone = s.ieDone := rfl
@[simp] theorem State.advance_ieErr : (s.advance).ieErr = s.ieErr := rfl
@[simp] theorem State.advance_mrPassed : (s.advance).mrPassed = s.mrPassed := rfl
@[simp] theorem State.advance_source : (s.advance).source = s.source := rfl
@[simp] theorem State.advance_lucasFirst : (s.advance).lucasFirst = s.lucasFirst := rfl
@[simp] theorem State.advance_rfBase : (s.advance).rfBase = s.rfBase := rfl
@[simp] theorem State.advance_fresh : (s.advance).fresh = s.fresh := rfl
@[simp] theorem State.advance_env : (s.advance).env = s.env := rfl
@[simp] theorem State.advance_epc : (s.advance).epc = s.epc + 1 := rfl
@[simp] theorem State.advance_answer : (s.advance).answer = s.answer := rfl
@[simp] theorem State.advance_polled : (s.advance).polled = s.polled := rfl
@[simp] theorem State.advance_limb : (s.advance).limb = s.limb := rfl
@[simp] theorem State.advance_gathered : (s.advance).gathered = s.gathered := rfl

/-! ### `answered` -/

@[simp] theorem State.answered_big (a : BusAnswer) : (s.answered a).big = s.big := rfl
@[simp] theorem State.answered_cur (a : BusAnswer) : (s.answered a).cur = s.cur := rfl
@[simp] theorem State.answered_busy (a : BusAnswer) : (s.answered a).busy = s.busy := rfl
@[simp] theorem State.answered_done (a : BusAnswer) : (s.answered a).done = s.done := rfl
@[simp] theorem State.answered_err (a : BusAnswer) : (s.answered a).err = s.err := rfl
@[simp] theorem State.answered_ovr (a : BusAnswer) : (s.answered a).ovr = s.ovr := rfl
@[simp] theorem State.answered_v (a : BusAnswer) : (s.answered a).v = s.v := rfl
@[simp] theorem State.answered_jac (a : BusAnswer) : (s.answered a).jac = s.jac := rfl
@[simp] theorem State.answered_ecode (a : BusAnswer) : (s.answered a).ecode = s.ecode := rfl
@[simp] theorem State.answered_ecmd (a : BusAnswer) : (s.answered a).ecmd = s.ecmd := rfl
@[simp] theorem State.answered_ieDone (a : BusAnswer) : (s.answered a).ieDone = s.ieDone := rfl
@[simp] theorem State.answered_ieErr (a : BusAnswer) : (s.answered a).ieErr = s.ieErr := rfl
@[simp] theorem State.answered_mrPassed (a : BusAnswer) : (s.answered a).mrPassed = s.mrPassed := rfl
@[simp] theorem State.answered_source (a : BusAnswer) : (s.answered a).source = s.source := rfl
@[simp] theorem State.answered_lucasFirst (a : BusAnswer) : (s.answered a).lucasFirst = s.lucasFirst := rfl
@[simp] theorem State.answered_rfBase (a : BusAnswer) : (s.answered a).rfBase = s.rfBase := rfl
@[simp] theorem State.answered_fresh (a : BusAnswer) : (s.answered a).fresh = s.fresh := rfl
@[simp] theorem State.answered_env (a : BusAnswer) : (s.answered a).env = s.env := rfl
@[simp] theorem State.answered_epc (a : BusAnswer) : (s.answered a).epc = s.epc := rfl
@[simp] theorem State.answered_answer (a : BusAnswer) : (s.answered a).answer = some a := rfl
@[simp] theorem State.answered_polled (a : BusAnswer) : (s.answered a).polled = s.polled := rfl
@[simp] theorem State.answered_limb (a : BusAnswer) : (s.answered a).limb = s.limb := rfl
@[simp] theorem State.answered_gathered (a : BusAnswer) : (s.answered a).gathered = s.gathered := rfl

/-! ### `hostRead` -/

@[simp] theorem State.hostRead_big (addr size : Nat) : (s.hostRead addr size).big = s.big := rfl
@[simp] theorem State.hostRead_cur (addr size : Nat) : (s.hostRead addr size).cur = s.cur := rfl
@[simp] theorem State.hostRead_busy (addr size : Nat) : (s.hostRead addr size).busy = s.busy := rfl
@[simp] theorem State.hostRead_done (addr size : Nat) : (s.hostRead addr size).done = s.done := rfl
@[simp] theorem State.hostRead_err (addr size : Nat) : (s.hostRead addr size).err = s.err := rfl
@[simp] theorem State.hostRead_ovr (addr size : Nat) : (s.hostRead addr size).ovr = s.ovr := rfl
@[simp] theorem State.hostRead_v (addr size : Nat) : (s.hostRead addr size).v = s.v := rfl
@[simp] theorem State.hostRead_jac (addr size : Nat) : (s.hostRead addr size).jac = s.jac := rfl
@[simp] theorem State.hostRead_ecode (addr size : Nat) : (s.hostRead addr size).ecode = s.ecode := rfl
@[simp] theorem State.hostRead_ecmd (addr size : Nat) : (s.hostRead addr size).ecmd = s.ecmd := rfl
@[simp] theorem State.hostRead_ieDone (addr size : Nat) : (s.hostRead addr size).ieDone = s.ieDone := rfl
@[simp] theorem State.hostRead_ieErr (addr size : Nat) : (s.hostRead addr size).ieErr = s.ieErr := rfl
@[simp] theorem State.hostRead_mrPassed (addr size : Nat) : (s.hostRead addr size).mrPassed = s.mrPassed := rfl
@[simp] theorem State.hostRead_source (addr size : Nat) : (s.hostRead addr size).source = s.source := rfl
@[simp] theorem State.hostRead_lucasFirst (addr size : Nat) : (s.hostRead addr size).lucasFirst = s.lucasFirst := rfl
@[simp] theorem State.hostRead_rfBase (addr size : Nat) : (s.hostRead addr size).rfBase = s.rfBase := rfl
@[simp] theorem State.hostRead_fresh (addr size : Nat) : (s.hostRead addr size).fresh = s.fresh := rfl
@[simp] theorem State.hostRead_env (addr size : Nat) : (s.hostRead addr size).env = s.env := rfl
@[simp] theorem State.hostRead_epc (addr size : Nat) : (s.hostRead addr size).epc = s.epc := rfl
@[simp] theorem State.hostRead_answer (addr size : Nat) : (s.hostRead addr size).answer = some (s.readAnswer addr size) := rfl
@[simp] theorem State.hostRead_polled (addr size : Nat) : (s.hostRead addr size).polled = s.polled := rfl
@[simp] theorem State.hostRead_limb (addr size : Nat) : (s.hostRead addr size).limb = s.limb := rfl
@[simp] theorem State.hostRead_gathered (addr size : Nat) : (s.hostRead addr size).gathered = s.gathered := rfl

/-! ### `nextLimb` -/

@[simp] theorem State.nextLimb_big : (s.nextLimb).big = s.big := rfl
@[simp] theorem State.nextLimb_cur : (s.nextLimb).cur = s.cur := rfl
@[simp] theorem State.nextLimb_busy : (s.nextLimb).busy = s.busy := rfl
@[simp] theorem State.nextLimb_done : (s.nextLimb).done = s.done := rfl
@[simp] theorem State.nextLimb_err : (s.nextLimb).err = s.err := rfl
@[simp] theorem State.nextLimb_ovr : (s.nextLimb).ovr = s.ovr := rfl
@[simp] theorem State.nextLimb_v : (s.nextLimb).v = s.v := rfl
@[simp] theorem State.nextLimb_jac : (s.nextLimb).jac = s.jac := rfl
@[simp] theorem State.nextLimb_ecode : (s.nextLimb).ecode = s.ecode := rfl
@[simp] theorem State.nextLimb_ecmd : (s.nextLimb).ecmd = s.ecmd := rfl
@[simp] theorem State.nextLimb_ieDone : (s.nextLimb).ieDone = s.ieDone := rfl
@[simp] theorem State.nextLimb_ieErr : (s.nextLimb).ieErr = s.ieErr := rfl
@[simp] theorem State.nextLimb_mrPassed : (s.nextLimb).mrPassed = s.mrPassed := rfl
@[simp] theorem State.nextLimb_source : (s.nextLimb).source = s.source := rfl
@[simp] theorem State.nextLimb_lucasFirst : (s.nextLimb).lucasFirst = s.lucasFirst := rfl
@[simp] theorem State.nextLimb_rfBase : (s.nextLimb).rfBase = s.rfBase := rfl
@[simp] theorem State.nextLimb_fresh : (s.nextLimb).fresh = s.fresh := rfl
@[simp] theorem State.nextLimb_env : (s.nextLimb).env = s.env := rfl
@[simp] theorem State.nextLimb_epc : (s.nextLimb).epc = if s.limb.val + 1 = Config.LIMBS then s.epc + 1 else s.epc := rfl
@[simp] theorem State.nextLimb_answer : (s.nextLimb).answer = s.answer := rfl
@[simp] theorem State.nextLimb_polled : (s.nextLimb).polled = s.polled := rfl
@[simp] theorem State.nextLimb_limb : (s.nextLimb).limb = s.limb + 1 := rfl
@[simp] theorem State.nextLimb_gathered : (s.nextLimb).gathered = s.gathered := rfl

/-! ### `gather` -/

@[simp] theorem State.gather_big : (s.gather).big = s.big := rfl
@[simp] theorem State.gather_cur : (s.gather).cur = s.cur := rfl
@[simp] theorem State.gather_busy : (s.gather).busy = s.busy := rfl
@[simp] theorem State.gather_done : (s.gather).done = s.done := rfl
@[simp] theorem State.gather_err : (s.gather).err = s.err := rfl
@[simp] theorem State.gather_ovr : (s.gather).ovr = s.ovr := rfl
@[simp] theorem State.gather_v : (s.gather).v = s.v := rfl
@[simp] theorem State.gather_jac : (s.gather).jac = s.jac := rfl
@[simp] theorem State.gather_ecode : (s.gather).ecode = s.ecode := rfl
@[simp] theorem State.gather_ecmd : (s.gather).ecmd = s.ecmd := rfl
@[simp] theorem State.gather_ieDone : (s.gather).ieDone = s.ieDone := rfl
@[simp] theorem State.gather_ieErr : (s.gather).ieErr = s.ieErr := rfl
@[simp] theorem State.gather_mrPassed : (s.gather).mrPassed = s.mrPassed := rfl
@[simp] theorem State.gather_source : (s.gather).source = s.source := rfl
@[simp] theorem State.gather_lucasFirst : (s.gather).lucasFirst = s.lucasFirst := rfl
@[simp] theorem State.gather_rfBase : (s.gather).rfBase = s.rfBase := rfl
@[simp] theorem State.gather_fresh : (s.gather).fresh = s.fresh := rfl
@[simp] theorem State.gather_env : (s.gather).env = s.env := rfl
@[simp] theorem State.gather_epc : (s.gather).epc = s.epc := rfl
@[simp] theorem State.gather_answer : (s.gather).answer = s.answer := rfl
@[simp] theorem State.gather_polled : (s.gather).polled = s.polled := rfl
@[simp] theorem State.gather_limb : (s.gather).limb = s.limb := rfl
@[simp] theorem State.gather_gathered : (s.gather).gathered = (if s.limb.val = 0 then 0 else s.gathered) + answerValue s.answer * 2 ^ (32 * s.limb.val) := rfl

/-! ### `branchIf` -/

@[simp] theorem State.branchIf_big (b : Bool) (label : Nat) : (s.branchIf b label).big = s.big := rfl
@[simp] theorem State.branchIf_cur (b : Bool) (label : Nat) : (s.branchIf b label).cur = s.cur := rfl
@[simp] theorem State.branchIf_busy (b : Bool) (label : Nat) : (s.branchIf b label).busy = s.busy := rfl
@[simp] theorem State.branchIf_done (b : Bool) (label : Nat) : (s.branchIf b label).done = s.done := rfl
@[simp] theorem State.branchIf_err (b : Bool) (label : Nat) : (s.branchIf b label).err = s.err := rfl
@[simp] theorem State.branchIf_ovr (b : Bool) (label : Nat) : (s.branchIf b label).ovr = s.ovr := rfl
@[simp] theorem State.branchIf_v (b : Bool) (label : Nat) : (s.branchIf b label).v = s.v := rfl
@[simp] theorem State.branchIf_jac (b : Bool) (label : Nat) : (s.branchIf b label).jac = s.jac := rfl
@[simp] theorem State.branchIf_ecode (b : Bool) (label : Nat) : (s.branchIf b label).ecode = s.ecode := rfl
@[simp] theorem State.branchIf_ecmd (b : Bool) (label : Nat) : (s.branchIf b label).ecmd = s.ecmd := rfl
@[simp] theorem State.branchIf_ieDone (b : Bool) (label : Nat) : (s.branchIf b label).ieDone = s.ieDone := rfl
@[simp] theorem State.branchIf_ieErr (b : Bool) (label : Nat) : (s.branchIf b label).ieErr = s.ieErr := rfl
@[simp] theorem State.branchIf_mrPassed (b : Bool) (label : Nat) : (s.branchIf b label).mrPassed = s.mrPassed := rfl
@[simp] theorem State.branchIf_source (b : Bool) (label : Nat) : (s.branchIf b label).source = s.source := rfl
@[simp] theorem State.branchIf_lucasFirst (b : Bool) (label : Nat) : (s.branchIf b label).lucasFirst = s.lucasFirst := rfl
@[simp] theorem State.branchIf_rfBase (b : Bool) (label : Nat) : (s.branchIf b label).rfBase = s.rfBase := rfl
@[simp] theorem State.branchIf_fresh (b : Bool) (label : Nat) : (s.branchIf b label).fresh = s.fresh := rfl
@[simp] theorem State.branchIf_env (b : Bool) (label : Nat) : (s.branchIf b label).env = s.env := rfl
@[simp] theorem State.branchIf_epc (b : Bool) (label : Nat) : (s.branchIf b label).epc = if b then label else s.epc + 1 := rfl
@[simp] theorem State.branchIf_answer (b : Bool) (label : Nat) : (s.branchIf b label).answer = s.answer := rfl
@[simp] theorem State.branchIf_polled (b : Bool) (label : Nat) : (s.branchIf b label).polled = s.polled := rfl
@[simp] theorem State.branchIf_limb (b : Bool) (label : Nat) : (s.branchIf b label).limb = s.limb := rfl
@[simp] theorem State.branchIf_gathered (b : Bool) (label : Nat) : (s.branchIf b label).gathered = s.gathered := rfl

/-! ### `waited` -/

@[simp] theorem State.waited_big : (s.waited).big = s.big := rfl
@[simp] theorem State.waited_cur : (s.waited).cur = s.cur := rfl
@[simp] theorem State.waited_busy : (s.waited).busy = s.busy := rfl
@[simp] theorem State.waited_done : (s.waited).done = s.done := rfl
@[simp] theorem State.waited_err : (s.waited).err = s.err := rfl
@[simp] theorem State.waited_ovr : (s.waited).ovr = s.ovr := rfl
@[simp] theorem State.waited_v : (s.waited).v = s.v := rfl
@[simp] theorem State.waited_jac : (s.waited).jac = s.jac := rfl
@[simp] theorem State.waited_ecode : (s.waited).ecode = s.ecode := rfl
@[simp] theorem State.waited_ecmd : (s.waited).ecmd = s.ecmd := rfl
@[simp] theorem State.waited_ieDone : (s.waited).ieDone = s.ieDone := rfl
@[simp] theorem State.waited_ieErr : (s.waited).ieErr = s.ieErr := rfl
@[simp] theorem State.waited_mrPassed : (s.waited).mrPassed = s.mrPassed := rfl
@[simp] theorem State.waited_source : (s.waited).source = s.source := rfl
@[simp] theorem State.waited_lucasFirst : (s.waited).lucasFirst = s.lucasFirst := rfl
@[simp] theorem State.waited_rfBase : (s.waited).rfBase = s.rfBase := rfl
@[simp] theorem State.waited_fresh : (s.waited).fresh = s.fresh := rfl
@[simp] theorem State.waited_env : (s.waited).env = s.env := rfl
@[simp] theorem State.waited_epc : (s.waited).epc = s.epc := rfl
@[simp] theorem State.waited_answer : (s.waited).answer = some (.data s.statusWord) := rfl
@[simp] theorem State.waited_polled : (s.waited).polled = s.statusWord := rfl
@[simp] theorem State.waited_limb : (s.waited).limb = s.limb := rfl
@[simp] theorem State.waited_gathered : (s.waited).gathered = s.gathered := rfl

/-! ### `withCommand` -/

@[simp] theorem State.withCommand_big (c : Word) : (s.withCommand c).big = s.big := rfl
@[simp] theorem State.withCommand_cur (c : Word) : (s.withCommand c).cur = c := rfl
@[simp] theorem State.withCommand_busy (c : Word) : (s.withCommand c).busy = true := rfl
@[simp] theorem State.withCommand_done (c : Word) : (s.withCommand c).done = false := rfl
@[simp] theorem State.withCommand_err (c : Word) : (s.withCommand c).err = s.err := rfl
@[simp] theorem State.withCommand_ovr (c : Word) : (s.withCommand c).ovr = s.ovr := rfl
@[simp] theorem State.withCommand_v (c : Word) : (s.withCommand c).v = s.v := rfl
@[simp] theorem State.withCommand_jac (c : Word) : (s.withCommand c).jac = s.jac := rfl
@[simp] theorem State.withCommand_ecode (c : Word) : (s.withCommand c).ecode = s.ecode := rfl
@[simp] theorem State.withCommand_ecmd (c : Word) : (s.withCommand c).ecmd = s.ecmd := rfl
@[simp] theorem State.withCommand_ieDone (c : Word) : (s.withCommand c).ieDone = s.ieDone := rfl
@[simp] theorem State.withCommand_ieErr (c : Word) : (s.withCommand c).ieErr = s.ieErr := rfl
@[simp] theorem State.withCommand_mrPassed (c : Word) : (s.withCommand c).mrPassed = 0 := rfl
@[simp] theorem State.withCommand_source (c : Word) : (s.withCommand c).source = s.source := rfl
@[simp] theorem State.withCommand_lucasFirst (c : Word) : (s.withCommand c).lucasFirst = s.lucasFirst := rfl
@[simp] theorem State.withCommand_rfBase (c : Word) : (s.withCommand c).rfBase = s.rfBase := rfl
@[simp] theorem State.withCommand_fresh (c : Word) : (s.withCommand c).fresh = s.fresh := rfl
@[simp] theorem State.withCommand_env (c : Word) : (s.withCommand c).env = s.env := rfl
@[simp] theorem State.withCommand_epc (c : Word) : (s.withCommand c).epc = s.env.length := rfl
@[simp] theorem State.withCommand_answer (c : Word) : (s.withCommand c).answer = s.answer := rfl
@[simp] theorem State.withCommand_polled (c : Word) : (s.withCommand c).polled = s.polled := rfl
@[simp] theorem State.withCommand_limb (c : Word) : (s.withCommand c).limb = s.limb := rfl
@[simp] theorem State.withCommand_gathered (c : Word) : (s.withCommand c).gathered = s.gathered := rfl

end Sys2Proof.Machine
end

