-- ==== Sys2Proof/Laws/Ops.lean ====
section
/-! SUPPORT. What the shared operations do, once: reading a register after a write, performing a rule's writes, completing,
forgetting registers, the soft reset, the decoder's fields. -/

namespace Sys2Proof.Machine

/-! ### Registers -/

theorem State.x_lt (s : State) (i : Reg) : s.x i < 2 ^ Config.W :=
  (s.bigReg i).isLt

@[simp] theorem State.bigReg_setBig_same (s : State) (i : Reg) (r : BitVec Config.W) : (s.setBig i r).bigReg i = r := by
  simp [State.bigReg]

theorem State.bigReg_setBig_ne (s : State) {i k : Reg} (r : BitVec Config.W) (h : k ≠ i) :
    (s.setBig i r).bigReg k = s.bigReg k := by
  have h' : i.val ≠ k.val := fun e => h (Fin.ext e.symm)
  simp [State.bigReg, h']

theorem State.x_setX_same (s : State) (i : Reg) {n : Nat} (h : n < 2 ^ Config.W) : (s.setX i n).x i = n := by
  simp [State.x, State.setX, Nat.mod_eq_of_lt h]

theorem State.x_setX_ne (s : State) {i k : Reg} (n : Nat) (h : k ≠ i) : (s.setX i n).x k = s.x k := by
  simp [State.x, State.setX, State.bigReg_setBig_ne s _ h]

/-- The registers a rule's writes may change. -/
def effectRegs : Effect → List Reg
  | .writeX rd _ => [rd]
  | .writeTwo rd _ rs1 _ => [rd, rs1]
  | .setV _ => []
  | .setJac _ => []

/-- Performing a rule's writes changes registers, `V` and `JAC` only (10_state.md R22, R39). -/
theorem State.apply_frame (s : State) (e : Effect) :
    s.apply e = { s with big := (s.apply e).big, v := (s.apply e).v, jac := (s.apply e).jac } := by
  cases e <;> rfl

/-- Performing a rule's writes changes no register but the ones it names. -/
theorem State.x_apply (s : State) (e : Effect) {k : Reg} (h : k ∉ effectRegs e) : (s.apply e).x k = s.x k := by
  cases e with
  | writeX rd n => exact State.x_setX_ne s n (by simpa [effectRegs] using h)
  | writeTwo rd m rs1 r =>
    simp only [effectRegs, List.mem_cons, List.not_mem_nil, or_false, not_or] at h
    simp [State.apply, State.x_setX_ne _ _ h.1, State.x_setX_ne _ _ h.2]
  | setV b => rfl
  | setJac j => rfl

/-- Completion (10_state.md R36): a fault is latched and nothing else happens, or the writes are performed. -/
theorem State.finish_cases (s : State) (r : Except EngineFault Effect) :
    (∃ f, r = .error f ∧ s.finish r = s.raiseFault f) ∨ (∃ e, r = .ok e ∧ s.finish r = (s.apply e).complete) := by
  cases r with
  | error f => exact .inl ⟨f, rfl, rfl⟩
  | ok e => exact .inr ⟨e, rfl, rfl⟩

@[simp] theorem State.finish_error (s : State) (f : EngineFault) : s.finish (.error f) = s.raiseFault f := rfl

@[simp] theorem State.finish_ok (s : State) (e : Effect) : s.finish (.ok e) = (s.apply e).complete := rfl

/-- Forgetting registers changes the registers of the list and the counter of free values, nothing else. -/
theorem State.forgetAll_frame (s : State) (is : List Reg) :
    s.forgetAll is = { s with big := (s.forgetAll is).big, fresh := (s.forgetAll is).fresh } := by
  induction is generalizing s with
  | nil => rfl
  | cons i is ih => rw [State.forgetAll, ih]; rfl

/-- Forgetting registers leaves every register outside the list as it was. -/
theorem State.bigReg_forgetAll (s : State) {is : List Reg} {k : Reg} (h : k ∉ is) :
    (s.forgetAll is).bigReg k = s.bigReg k := by
  induction is generalizing s with
  | nil => rfl
  | cons i is ih =>
    simp only [List.mem_cons, not_or] at h
    rw [State.forgetAll, ih _ h.2]
    exact State.bigReg_setBig_ne s _ h.1

/-- The soft reset (10_state.md R45): registers outside the aborted command's destinations, `CUR` and the other agents' fields
keep their values; the control state takes its reset values. -/
theorem State.softReset_frame (s : State) :
    s.softReset = { s.resetControl with big := s.softReset.big, fresh := s.softReset.fresh } := by
  rw [State.softReset, State.forgetAll_frame]; rfl

/-- With no command in execution the soft reset changes no big register (R45). -/
theorem State.softReset_idle (s : State) (h : s.busy = false) : s.softReset = s.resetControl := by
  simp [State.softReset, h, State.forgetAll]

/-! ### Encoding -/

theorem regOf_regBits (r : Reg) : regOf (regBits r) = .ok r := by
  simp [regOf, regBits]

/-- Packing and unpacking the seven fields lose nothing (30_encoding.md R90). -/
theorem fieldsOf_packFields (f : Fields) : fieldsOf (packFields f) = f := by
  cases f
  simp only [fieldsOf, packFields, Fields.mk.injEq]
  refine ⟨?_, ?_, ?_, ?_, ?_, ?_, ?_⟩ <;>
  · ext i hi
    simp only [BitVec.getElem_extractLsb', BitVec.getLsbD_append]
    interval_cases i <;> simp

/-- Unpacking and packing lose nothing (R90). -/
theorem packFields_fieldsOf (c : Word) : packFields (fieldsOf c) = c := by
  apply BitVec.eq_of_getLsbD_eq
  intro i hi
  simp only [packFields, fieldsOf, BitVec.getLsbD_append, BitVec.getLsbD_extractLsb']
  interval_cases i <;> simp

/-- The three nibbles of MRTEST's immediate make it up (R90). -/
theorem imm_of_nibbles (imm : BitVec 12) :
    imm.extractLsb' 8 4 ++ imm.extractLsb' 4 4 ++ imm.extractLsb' 0 4 = imm := by
  revert imm; decide +kernel

/-- The nibbles of MRTEST's immediate are the fields it is read from (R90). -/
theorem nibbles_of_imm (f : Fields) :
    (immField f).extractLsb' 8 4 = f.rs3 ∧ (immField f).extractLsb' 4 4 = f.rs4 ∧
      (immField f).extractLsb' 0 4 = f.fl := by
  have h : ∀ a b c : BitVec 4, (a ++ b ++ c).extractLsb' 8 4 = a ∧ (a ++ b ++ c).extractLsb' 4 4 = b ∧
      (a ++ b ++ c).extractLsb' 0 4 = c := by decide +kernel
  exact h f.rs3 f.rs4 f.fl

end Sys2Proof.Machine
end

