-- ==== Sys2Proof/Laws/Window.lean ====
section
/-! SUPPORT. The host window: where a limb lies, what replacing a limb leaves, what a host write can do. -/

namespace Sys2Proof.Machine

theorem W_eq : Config.W = 32 * Config.LIMBS := by
  unfold Config.W; rfl

/-- The address of limb `j` of `x[i]` reaches that limb, wherever the register window is (20_memory.md R61). -/
theorem targetOf_limbAddr (b : Config.RfBase) (i : Reg) (j : Fin Config.LIMBS) :
    targetOf b (limbAddr b i j) 4 = some (.limb i j) := by
  obtain ⟨b, hm4, hb14⟩ := b
  have hi := i.isLt
  have hj := j.isLt
  simp only [Config.NREG, Config.LIMBS] at hi hj
  have e : (limbAddr b i j - b) / 4 = 512 * i.val + j.val := by
    simp only [limbAddr, Config.LIMBS]; omega
  have hb : b ≤ limbAddr b i j := by simp only [limbAddr]; omega
  have hm : limbAddr b i j % 4 = 0 := by simp only [limbAddr, Config.LIMBS]; omega
  have hd : (512 * i.val + j.val) / Config.LIMBS = i.val := by simp only [Config.LIMBS]; omega
  have hr : (512 * i.val + j.val) % Config.LIMBS = j.val := by simp only [Config.LIMBS]; omega
  rw [targetOf]
  simp only [hm, e, limbTarget, hd, hr]
  rw [if_neg (by omega), if_neg (by omega), if_neg (by omega), if_neg (by omega), if_neg (by omega), if_neg (by omega),
    if_neg (by omega), dif_pos hi]

/-- Bit `k` of a big register after limb `j` is replaced (R64). -/
theorem getLsbD_withLimb (r : BitVec Config.W) (j : Fin Config.LIMBS) (w : Word) (k : Nat) :
    (withLimb r j w).getLsbD k
      = if 32 * j.val ≤ k ∧ k < 32 * j.val + 32 then w.getLsbD (k - 32 * j.val) else r.getLsbD k := by
  have hj := j.isLt
  have hW := W_eq
  simp only [withLimb, BitVec.getLsbD_or, BitVec.getLsbD_and, BitVec.getLsbD_not, BitVec.getLsbD_shiftLeft,
    BitVec.getLsbD_setWidth, BitVec.getLsbD_allOnes]
  generalize Config.W = W at *
  by_cases hk : k < W
  · by_cases h1 : k < 32 * j.val
    · have h2 : ¬ (32 * j.val ≤ k ∧ k < 32 * j.val + 32) := by omega
      simp [hk, h1, h2]
    · by_cases h3 : k < 32 * j.val + 32
      · have h2 : 32 * j.val ≤ k ∧ k < 32 * j.val + 32 := ⟨by omega, h3⟩
        have h4 : k - 32 * j.val < 32 := by omega
        have h5 : k - 32 * j.val < W := by omega
        simp [hk, h1, h2, h4, h5]
      · have h2 : ¬ (32 * j.val ≤ k ∧ k < 32 * j.val + 32) := by omega
        have h4 : ¬ k - 32 * j.val < 32 := by omega
        have h6 : w.getLsbD (k - 32 * j.val) = false := BitVec.getLsbD_of_ge _ _ (by omega)
        simp [hk, h1, h2, h4, h6]
  · have h2 : ¬ (32 * j.val ≤ k ∧ k < 32 * j.val + 32) := by omega
    have h3 : r.getLsbD k = false := BitVec.getLsbD_of_ge _ _ (by omega)
    simp [hk, h2, h3]

/-- The replaced limb reads as the word written (R64). -/
theorem limbOf_withLimb_same (r : BitVec Config.W) (j : Fin Config.LIMBS) (w : Word) : limbOf (withLimb r j w) j = w := by
  ext b hb
  have h : b < 32 := hb
  simp only [limbOf, BitVec.getElem_extractLsb', getLsbD_withLimb]
  rw [if_pos ⟨by omega, by omega⟩, Nat.add_sub_cancel_left, BitVec.getLsbD_eq_getElem hb]

/-- Replacing a limb changes no other limb (R64). -/
theorem limbOf_withLimb_ne (r : BitVec Config.W) {j k : Fin Config.LIMBS} (w : Word) (h : k ≠ j) :
    limbOf (withLimb r j w) k = limbOf r k := by
  have h' : k.val ≠ j.val := fun e => h (Fin.ext e)
  ext b hb
  have hb' : b < 32 := hb
  simp only [limbOf, BitVec.getElem_extractLsb', getLsbD_withLimb]
  rw [if_neg (by omega)]

/-- No host write but the soft reset touches what the host cannot write: while `BUSY = 1` a host write leaves the big registers,
`CUR`, `V`, `JAC` and the rounds passed as they are, or is the soft reset (20_memory.md R65; 10_state.md R32). -/
theorem State.hostWrite_busy (s : State) (addr size : Nat) (w : Word) (h : s.busy = true) :
    s.hostWrite addr size w = s.softReset ∨
      ((s.hostWrite addr size w).big = s.big ∧ (s.hostWrite addr size w).cur = s.cur ∧
        (s.hostWrite addr size w).v = s.v ∧ (s.hostWrite addr size w).jac = s.jac ∧
        (s.hostWrite addr size w).mrPassed = s.mrPassed) := by
  unfold State.hostWrite
  split
  · right; simp [State.writeCmd, h]
  · right
    simp only [State.writeStatus, State.clearOvrIf, State.clearFaultIf, State.clearDoneIf]
    refine ⟨?_, ?_, ?_, ?_, ?_⟩ <;> split <;> split <;> split <;> rfl
  · exact .inr ⟨rfl, rfl, rfl, rfl, rfl⟩
  · by_cases hw : w.getLsbD 31 = true
    · left; rw [State.writeCtrl, if_pos hw]
    · right; rw [State.writeCtrl, if_neg hw]; exact ⟨rfl, rfl, rfl, rfl, rfl⟩
  · exact .inr ⟨rfl, rfl, rfl, rfl, rfl⟩
  · right; simp [State.writeLimb, h]
  · exact .inr ⟨rfl, rfl, rfl, rfl, rfl⟩

/-- A host write changes the engine's own fields and the counter of free values only: the other agents' fields and the
parameters stay (20_memory.md R67). -/
theorem State.hostWrite_frame (s : State) (addr size : Nat) (w : Word) :
    ∃ t : State, s.hostWrite addr size w = { t with
      source := s.source, lucasFirst := s.lucasFirst, rfBase := s.rfBase, env := s.env, epc := s.epc, answer := s.answer,
      polled := s.polled, limb := s.limb, gathered := s.gathered } := by
  refine ⟨s.hostWrite addr size w, ?_⟩
  unfold State.hostWrite
  split
  · unfold State.writeCmd; split <;> rfl
  · simp only [State.writeStatus, State.clearOvrIf, State.clearFaultIf, State.clearDoneIf]
    split <;> split <;> split <;> rfl
  · rfl
  · unfold State.writeCtrl
    split
    · rw [State.softReset_frame]; rfl
    · rfl
  · rfl
  · unfold State.writeLimb; split <;> rfl
  · rfl

section

variable (s : State) (addr size : Nat) (w : Word)

@[simp] theorem State.hostWrite_source : (s.hostWrite addr size w).source = s.source := by
  obtain ⟨t, h⟩ := s.hostWrite_frame addr size w; rw [h]

@[simp] theorem State.hostWrite_lucasFirst : (s.hostWrite addr size w).lucasFirst = s.lucasFirst := by
  obtain ⟨t, h⟩ := s.hostWrite_frame addr size w; rw [h]

@[simp] theorem State.hostWrite_rfBase : (s.hostWrite addr size w).rfBase = s.rfBase := by
  obtain ⟨t, h⟩ := s.hostWrite_frame addr size w; rw [h]

@[simp] theorem State.hostWrite_env : (s.hostWrite addr size w).env = s.env := by
  obtain ⟨t, h⟩ := s.hostWrite_frame addr size w; rw [h]

@[simp] theorem State.hostWrite_epc : (s.hostWrite addr size w).epc = s.epc := by
  obtain ⟨t, h⟩ := s.hostWrite_frame addr size w; rw [h]

@[simp] theorem State.hostWrite_answer : (s.hostWrite addr size w).answer = s.answer := by
  obtain ⟨t, h⟩ := s.hostWrite_frame addr size w; rw [h]

@[simp] theorem State.hostWrite_polled : (s.hostWrite addr size w).polled = s.polled := by
  obtain ⟨t, h⟩ := s.hostWrite_frame addr size w; rw [h]

@[simp] theorem State.hostWrite_limbField : (s.hostWrite addr size w).limb = s.limb := by
  obtain ⟨t, h⟩ := s.hostWrite_frame addr size w; rw [h]

@[simp] theorem State.hostWrite_gathered : (s.hostWrite addr size w).gathered = s.gathered := by
  obtain ⟨t, h⟩ := s.hostWrite_frame addr size w; rw [h]

end

/-- A write to a limb of an idle engine replaces that limb and nothing else (R64). -/
theorem State.hostWrite_limb (s : State) (i : Reg) (j : Fin Config.LIMBS) (w : Word) (h : s.busy = false) :
    s.hostWrite (limbAddr s.rfBase i j) 4 w = s.setBig i (withLimb (s.bigReg i) j w) := by
  simp [State.hostWrite, targetOf_limbAddr, State.writeLimb, h]

/-- A write to a limb of a busy engine changes nothing (R65). -/
theorem State.hostWrite_limb_busy (s : State) (i : Reg) (j : Fin Config.LIMBS) (w : Word) (h : s.busy = true) :
    s.hostWrite (limbAddr s.rfBase i j) 4 w = s := by
  simp [State.hostWrite, targetOf_limbAddr, State.writeLimb, h]

/-- What a read of a limb answers, and what a write to one is answered (R64, R65). -/
theorem State.limb_answers (s : State) (i : Reg) (j : Fin Config.LIMBS) :
    s.readAnswer (limbAddr s.rfBase i j) 4 = (if s.busy then .busError else .data (limbOf (s.bigReg i) j)) ∧
      s.writeAnswer (limbAddr s.rfBase i j) 4 = (if s.busy then .busError else .written) := by
  simp [State.readAnswer, State.writeAnswer, targetOf_limbAddr]

/-- Before the last limb the host stays at its LDR or RDR (30_encoding.md R97). -/
theorem State.nextLimb_inside {s : State} (h : s.limb.val + 1 < Config.LIMBS) : s.nextLimb = { s with limb := s.limb + 1 } := by
  rw [State.nextLimb, if_neg (by omega)]

/-- After the last limb the host goes on, the place being limb 0 again (R97). -/
theorem State.nextLimb_last {s : State} (h : s.limb.val + 1 = Config.LIMBS) :
    s.nextLimb = { s with limb := 0, epc := s.epc + 1 } := by
  have e : s.limb + 1 = 0 := Fin.ext (by
    rw [Fin.val_add]
    simp only [Config.LIMBS] at h ⊢
    show (s.limb.val + 1) % 512 = 0
    rw [h])
  rw [State.nextLimb, if_pos h, e]

/-- One limb of `LDR` on an idle engine (R97, 20_memory.md R64, R68). -/
theorem State.ldr_idle (s : State) (i : Reg) (v : BitVec Config.W) (h : s.busy = false) :
    s.ldr i v = ((s.setBig i (withLimb (s.bigReg i) s.limb (limbOf v s.limb))).answered .written).nextLimb := by
  rw [State.ldr, State.hostStore, s.hostWrite_limb _ _ _ h, (s.limb_answers _ _).2, if_neg (by simp [h])]

/-- One limb of `LDR` on a busy engine is refused (R65). -/
theorem State.ldr_busy (s : State) (i : Reg) (v : BitVec Config.W) (h : s.busy = true) :
    s.ldr i v = (s.answered .busError).nextLimb := by
  rw [State.ldr, State.hostStore, s.hostWrite_limb_busy _ _ _ h, (s.limb_answers _ _).2, if_pos h]

/-- One limb of `RDR` on an idle engine (R97, R64, R68). -/
theorem State.rdr_idle (s : State) (i : Reg) (h : s.busy = false) :
    s.rdr i = ((s.answered (.data (limbOf (s.bigReg i) s.limb))).gather).nextLimb := by
  rw [State.rdr, State.hostRead, (s.limb_answers _ _).1, if_neg (by simp [h])]

/-- One limb of `RDR` on a busy engine is refused (R65). -/
theorem State.rdr_busy (s : State) (i : Reg) (h : s.busy = true) : s.rdr i = ((s.answered .busError).gather).nextLimb := by
  rw [State.rdr, State.hostRead, (s.limb_answers _ _).1, if_pos h]

end Sys2Proof.Machine
end

