-- ==== Sys2Proof/Laws/Exec.lean ====
section
/-! SUPPORT. What executing a command and what one step of the machine can do, once. -/

namespace Sys2Proof.Machine

/-- The rounds of an MRTEST consume a first part of the answers (60_exceptions.md R232). -/
theorem mrRounds_rest (w n : Nat) (src : List Nat) {t : Bool} {rest : List Nat}
    (h : mrRounds w n src = .decided t rest) : ∃ k, rest = src.drop k := by
  induction n generalizing src with
  | zero => simp only [mrRounds, MrRun.decided.injEq] at h; exact ⟨0, h.2.symm⟩
  | succ n ih =>
    cases src with
    | nil => simp [mrRounds] at h
    | cons a as =>
      rw [mrRounds] at h
      split at h
      · simp only [MrRun.decided.injEq] at h; exact ⟨1, h.2.symm⟩
      · obtain ⟨k, hk⟩ := ih as h; exact ⟨k + 1, hk⟩

/-- What MRTEST's step does (42_primality.md R155): it completes with a verdict, a first part of the source's answers being
consumed, or it stays in execution with the source's answers used up. -/
theorem mrtestStep_cases (w rounds : Nat) (s : State) :
    (∃ t k, mrtestStep w rounds s = { s with v := t, source := s.source.drop k, busy := false, done := true }) ∨
      mrtestStep w rounds s = { s with mrPassed := s.mrPassed + s.source.length, source := [] } := by
  unfold mrtestStep
  split
  · rename_i t _
    exact .inl ⟨t, 0, rfl⟩
  · split
    · rename_i t rest h
      obtain ⟨k, rfl⟩ := mrRounds_rest w _ s.source h
      exact .inl ⟨t, k, rfl⟩
    · exact .inr rfl

/-- What a command's rule may write (10_state.md R22, R39). -/
def effectFits : Instr → Effect → Prop
  | .modexp rd _ _ _, e => ∃ n, e = .writeX rd n
  | .rsaep rd _ _ _, e => ∃ n, e = .writeX rd n
  | .montred rd _ _, e => ∃ n, e = .writeX rd n
  | .crtstep rd rs1 _ _ _, e => ∃ m r, e = .writeTwo rd m rs1 r
  | .mrround _ _, e => ∃ b, e = .setV b
  | .mrtest _ _, e => ∃ b, e = .setV b
  | .lucas _, e => ∃ b, e = .setV b
  | .jacobi _ _ _, e => ∃ j, j ≠ 0b10 ∧ e = .setJac j
  | .issqr _, e => ∃ b, e = .setV b

/-- A rule writes no register but the command's destinations. -/
theorem effectFits.regs {i : Instr} {e : Effect} (h : effectFits i e) : effectRegs e ⊆ i.dests := by
  cases i <;> simp only [effectFits] at h
  case jacobi => obtain ⟨j, -, rfl⟩ := h; simp [effectRegs]
  case crtstep => obtain ⟨m, r, rfl⟩ := h; simp [effectRegs, Instr.dests]
  all_goals obtain ⟨b, rfl⟩ := h; simp [effectRegs, Instr.dests]

/-- The `JAC` field is never `0b10` (10_state.md R33). -/
theorem jacField_ne (j : Int) : jacField j ≠ 0b10 := by
  unfold jacField; split_ifs <;> decide

/-- What executing a command can do (10_state.md R36): latch a fault other than `IllegalCommand`, or perform writes of its own
kind and complete, or, MRTEST only, take MRTEST's step. -/
theorem exec_cases (i : Instr) (s : State) :
    (∃ f, f ≠ .illegalCommand ∧ exec i s = .next (s.raiseFault f)) ∨
    (∃ e, effectFits i e ∧ exec i s = .next (s.apply e).complete) ∨
    (∃ rs1 imm, i = .mrtest rs1 imm ∧ exec i s = .next (mrtestStep (s.x rs1) (roundsOf imm) s)) := by
  have key : ∀ r : Except EngineFault Effect, exec i s = .next (s.finish r) →
      (∀ f, r = .error f → f ≠ .illegalCommand) → (∀ e, r = .ok e → effectFits i e) →
      (∃ f, f ≠ .illegalCommand ∧ exec i s = .next (s.raiseFault f)) ∨
      (∃ e, effectFits i e ∧ exec i s = .next (s.apply e).complete) ∨
      (∃ rs1 imm, i = .mrtest rs1 imm ∧ exec i s = .next (mrtestStep (s.x rs1) (roundsOf imm) s)) := by
    intro r h hf he
    rcases s.finish_cases r with ⟨f, rfl, hr⟩ | ⟨e, rfl, hr⟩
    · exact .inl ⟨f, hf f rfl, by rw [h, hr]⟩
    · exact .inr (.inl ⟨e, he e rfl, by rw [h, hr]⟩)
  cases i with
  | mrtest rs1 imm => exact .inr (.inr ⟨rs1, imm, rfl, rfl⟩)
  | modexp rd rs1 rs2 rs3 =>
    refine key _ rfl ?_ ?_ <;> intro a ha <;> unfold modexpRule at ha <;> split at ha <;> simp_all [effectFits]
    · subst ha; simp
    · exact ⟨_, ha.symm⟩
  | rsaep rd rs1 rs2 rs3 =>
    refine key _ rfl ?_ ?_ <;> intro a ha <;> unfold rsaepRule at ha <;> split at ha <;> (try split at ha) <;>
      simp_all [effectFits]
    · subst ha; simp
    · subst ha; simp
    · exact ⟨_, ha.symm⟩
  | montred rd rs1 rs3 =>
    refine key _ rfl ?_ ?_ <;> intro a ha <;> unfold montredRule at ha <;> split at ha <;> (try split at ha) <;>
      simp_all [effectFits]
    · subst ha; simp
    · subst ha; simp
    · exact ⟨_, ha.symm⟩
  | crtstep rd rs1 rs2 rs3 rs4 =>
    refine key _ rfl ?_ ?_ <;> intro a ha <;> unfold crtstepRule at ha <;> split at ha <;> (try split at ha) <;>
      simp_all [effectFits]
    · subst ha; simp
    · subst ha; simp
    · exact ⟨_, _, ha.symm⟩
  | mrround rs1 rs2 =>
    refine key _ rfl ?_ ?_ <;> intro a ha <;> unfold mrroundRule at ha <;> split at ha <;> (try split at ha)
    · simp at ha
    · rw [← Except.error.inj ha]; simp
    · simp at ha
    · exact ⟨_, (Except.ok.inj ha).symm⟩
    · simp at ha
    · exact ⟨_, (Except.ok.inj ha).symm⟩
  | lucas rs1 => exact key _ rfl (by simp) fun e he => ⟨_, (Except.ok.inj he).symm⟩
  | jacobi rs1 rs3 sa =>
    refine key _ rfl ?_ ?_ <;> intro a ha <;> unfold jacobiRule at ha <;> split at ha <;> simp_all [effectFits]
    · subst ha; simp
    · exact ⟨_, jacField_ne _, ha.symm⟩
  | issqr rs1 => exact key _ rfl (by simp) fun e he => ⟨_, (Except.ok.inj he).symm⟩

/-- Executing a command always answers a next state. -/
theorem exec_next (i : Instr) (s : State) : ∃ t, exec i s = .next t := by
  rcases exec_cases i s with ⟨f, -, h⟩ | ⟨e, -, h⟩ | ⟨_, _, -, h⟩ <;> exact ⟨_, h⟩

/-- A command changes the engine's own fields and, MRTEST, the source's answers only: the host's fields, the parameters and the
counter of free values stay (10_state.md R31; 60_exceptions.md R230). -/
theorem exec_frame {i : Instr} {s t : State} (h : exec i s = .next t) :
    t = { t with cur := s.cur, lucasFirst := s.lucasFirst, rfBase := s.rfBase, fresh := s.fresh, env := s.env, epc := s.epc,
                 answer := s.answer, polled := s.polled, limb := s.limb, gathered := s.gathered } := by
  rcases exec_cases i s with ⟨f, -, hf⟩ | ⟨e, -, he⟩ | ⟨_, _, -, hm⟩
  · rw [hf] at h; cases h; rfl
  · rw [he] at h; cases h; cases e <;> rfl
  · rw [hm] at h; cases h
    rcases mrtestStep_cases (s.x _) (roundsOf _) s with ⟨v, k, hk⟩ | hk <;> rw [hk]

/-- The engine's turn with a legal command in execution is that command's completion (10_state.md R36). -/
theorem engineTurn_exec {s : State} {i : Instr} (hb : s.busy = true) (hd : decode s.cur = .ok i) :
    engineTurn s = exec i s := by
  simp [engineTurn, hb, hd]

/-- The engine's turn with an illegal word in execution latches `IllegalCommand` (30_encoding.md R94). -/
theorem engineTurn_illegal {s : State} {e : DecodeError} (hb : s.busy = true) (hd : decode s.cur = .error e) :
    engineTurn s = .next (s.raiseFault .illegalCommand) := by
  simp [engineTurn, hb, hd]

/-- The engine's turn while idle changes nothing. -/
theorem engineTurn_idle {s : State} (hb : s.busy = false) : engineTurn s = .next s := by
  simp [engineTurn, hb]

/-- The engine's turn always answers a next state. -/
theorem engineTurn_next (s : State) : ∃ t, engineTurn s = .next t := by
  unfold engineTurn
  split
  · split
    · exact exec_next _ s
    · exact ⟨_, rfl⟩
  · exact ⟨s, rfl⟩

/-- Every step answers a next state (the model's: log 21). -/
theorem step_next (s : State) : ∃ t, step s = .next t := by
  unfold step machineStep
  split
  · rename_i op _
    cases op <;> simp only [envStep] <;> first | exact ⟨_, rfl⟩ | exact engineTurn_next _ | skip
    split
    · exact engineTurn_next s
    · exact ⟨_, rfl⟩
  · exact engineTurn_next s

/-- The environment's program being over, a step is the engine's turn. -/
theorem step_over {s : State} (h : s.env[s.epc]? = none) : step s = engineTurn s := by
  simp [step, machineStep, h]

/-- A step of the environment's program. -/
theorem step_env {s : State} {op : EnvOp} (h : s.env[s.epc]? = some op) : step s = envStep op s := by
  simp [step, machineStep, h]

/-- A step at which the engine has its turn is the engine's turn, the environment's index apart (log 8). -/
theorem step_engine {s : State} (h : engineHasTurn s = true) : ∃ e, step s = engineTurn { s with epc := e } := by
  unfold engineHasTurn at h
  cases ho : s.env[s.epc]? with
  | none => exact ⟨s.epc, step_over ho⟩
  | some op =>
    rw [ho] at h
    cases op <;> simp at h
    case wait => exact ⟨s.epc, by rw [step_env ho, envStep]; exact if_pos h⟩
    case engine => exact ⟨s.epc + 1, step_env ho⟩

/-- What any other step can do while a command is in execution, unless it ends it (a reset): it leaves the registers, `CUR` and
the rounds passed, and the source may answer (10_state.md R38; 20_memory.md R65). -/
theorem step_other_busy {s t : State} (hb : s.busy = true) (hn : engineHasTurn s = false) (h : step s = .next t)
    (ht : t.busy = true) :
    t.big = s.big ∧ t.cur = s.cur ∧ t.mrPassed = s.mrPassed ∧ ∃ l, t.source = s.source ++ l := by
  unfold engineHasTurn at hn
  cases ho : s.env[s.epc]? with
  | none => rw [ho] at hn; simp at hn
  | some op =>
    rw [ho] at hn
    rw [step_env ho] at h
    have wr : ∀ a n w, (s.hostWrite a n w).busy = true → (s.hostWrite a n w).big = s.big ∧ (s.hostWrite a n w).cur = s.cur ∧
        (s.hostWrite a n w).mrPassed = s.mrPassed ∧ ∃ l, (s.hostWrite a n w).source = s.source ++ l := by
      intro a n w hx
      rcases s.hostWrite_busy a n w hb with e | ⟨e1, e2, -, -, e3⟩
      · rw [e, s.softReset_frame] at hx; simp at hx
      · exact ⟨e1, e2, e3, [], by simp⟩
    cases op <;> simp only [envStep] at h
    case engine => simp at hn
    case wait => simp [hb] at hn
    case write => cases h; exact wr _ _ _ ht
    case ldr => cases h; exact wr _ _ _ ht
    case supply r => cases h; exact ⟨rfl, rfl, rfl, [r], rfl⟩
    case hardReset => cases h; simp at ht
    all_goals cases h; exact ⟨rfl, rfl, rfl, [], (List.append_nil _).symm⟩

/-- The state after a step is the one the step answers. -/
theorem step_afterStep (s : State) : step s = .next (afterStep s) := by
  obtain ⟨t, h⟩ := step_next s
  simp [afterStep, h]

/-- The step after `withCommand` is the engine's turn. -/
theorem step_withCommand (s : State) (c : Word) : step (s.withCommand c) = engineTurn (s.withCommand c) :=
  step_over (by simp)

end Sys2Proof.Machine
end

