-- ==== Sys2Proof/Laws/PerInstr.lean ====
section
/-! SUPPORT. The family of statements about every command as syntax: its word has the fixed bits of its row in the opcode table
(30_encoding.md R92). -/

namespace Sys2Proof.Laws.FixedBits

/-- The command's word agrees with its row's `match` on its row's `mask` (R92). -/
def Statement (i : Instr) : Prop :=
  encode i &&& i.maskBits = i.matchBits

/-- The field-by-field conjunction. -/
def andFields (f g : Fields) : Fields :=
  ⟨f.op &&& g.op, f.rd &&& g.rd, f.rs1 &&& g.rs1, f.rs2 &&& g.rs2, f.rs3 &&& g.rs3, f.rs4 &&& g.rs4, f.fl &&& g.fl⟩

/-- Masking a word masks its fields. -/
theorem packFields_and (f g : Fields) : packFields f &&& packFields g = packFields (andFields f g) := by
  apply BitVec.eq_of_getLsbD_eq
  intro i hi
  simp only [packFields, andFields, BitVec.getLsbD_and, BitVec.getLsbD_append]
  split_ifs <;> rfl

/-- A word's fixed bits, from its fields' fixed bits. -/
theorem of_fields {i : Instr} {m k : Fields} (hm : i.maskBits = packFields m) (hk : i.matchBits = packFields k)
    (h : andFields i.fields m = k) : Statement i := by
  rw [Statement, encode, hm, packFields_and, h, hk]

theorem and_allOnes4 (b : BitVec 4) : b &&& 15#4 = b :=
  BitVec.and_allOnes

theorem modexp (rd rs1 rs2 rs3 : Reg) : Statement (.modexp rd rs1 rs2 rs3) :=
  of_fields (m := ⟨0xFF, 0, 0, 0, 0, 0xF, 0xF⟩) (k := ⟨0x01, 0, 0, 0, 0, 0, 0⟩) rfl rfl (by simp [andFields, Instr.fields])

theorem rsaep (rd rs1 rs2 rs3 : Reg) : Statement (.rsaep rd rs1 rs2 rs3) :=
  of_fields (m := ⟨0xFF, 0, 0, 0, 0, 0xF, 0xF⟩) (k := ⟨0x02, 0, 0, 0, 0, 0, 0⟩) rfl rfl (by simp [andFields, Instr.fields])

theorem montred (rd rs1 rs3 : Reg) : Statement (.montred rd rs1 rs3) :=
  of_fields (m := ⟨0xFF, 0, 0, 0xF, 0, 0xF, 0xF⟩) (k := ⟨0x03, 0, 0, 0, 0, 0, 0⟩) rfl rfl (by simp [andFields, Instr.fields])

theorem crtstep (rd rs1 rs2 rs3 rs4 : Reg) : Statement (.crtstep rd rs1 rs2 rs3 rs4) :=
  of_fields (m := ⟨0xFF, 0, 0, 0, 0, 0, 0xF⟩) (k := ⟨0x04, 0, 0, 0, 0, 0, 0⟩) rfl rfl (by simp [andFields, Instr.fields])

theorem mrround (rs1 rs2 : Reg) : Statement (.mrround rs1 rs2) :=
  of_fields (m := ⟨0xFF, 0xF, 0, 0, 0xF, 0xF, 0xF⟩) (k := ⟨0x10, 0, 0, 0, 0, 0, 0⟩) rfl rfl (by simp [andFields, Instr.fields])

theorem mrtest (rs1 : Reg) (imm12 : BitVec 12) : Statement (.mrtest rs1 imm12) :=
  of_fields (m := ⟨0xFF, 0xF, 0, 0xF, 0, 0, 0⟩) (k := ⟨0x11, 0, 0, 0, 0, 0, 0⟩) rfl rfl (by simp [andFields, Instr.fields])

theorem lucas (rs1 : Reg) : Statement (.lucas rs1) :=
  of_fields (m := ⟨0xFF, 0xF, 0, 0xF, 0xF, 0xF, 0xF⟩) (k := ⟨0x12, 0, 0, 0, 0, 0, 0⟩) rfl rfl (by simp [andFields, Instr.fields])

theorem jacobi (rs1 rs3 : Reg) (sa : Bool) : Statement (.jacobi rs1 rs3 sa) :=
  of_fields (m := ⟨0xFF, 0xF, 0, 0xF, 0, 0xF, 0xE⟩) (k := ⟨0x13, 0, 0, 0, 0, 0, 0⟩) rfl rfl (by cases sa <;> simp [andFields, Instr.fields])

theorem issqr (rs1 : Reg) : Statement (.issqr rs1) :=
  of_fields (m := ⟨0xFF, 0xF, 0, 0xF, 0xF, 0xF, 0xF⟩) (k := ⟨0x14, 0, 0, 0, 0, 0, 0⟩) rfl rfl (by simp [andFields, Instr.fields])

end Sys2Proof.Laws.FixedBits
end

