-- ==== Sys2Proof/Tests/Slice0.lean ====
section
/-! SUPPORT. Tests on single steps, with expected results from spec/95_test_vectors.md and the examples of the rules, and for
every obligation with hypotheses a witness that meets them. -/

-- One proof after another: with a hundred kernel evaluations at once Lean asks for more threads than the memory limit gives.
set_option Elab.async false

namespace Sys2Proof.Tests

open Sys2Proof Sys2Proof.Machine

/-! ### Small states -/

/-- The reset state with some big registers loaded. -/
def load (l : List (Reg × Nat)) : State :=
  l.foldl (fun s p => s.setX p.1 p.2) State.reset

/-- The same with a command accepted and the environment's program over. -/
def running (c : Word) (l : List (Reg × Nat)) : State :=
  (load l).accept c

/-- A state in which the environment's next entry is `op`. -/
def facing (op : EnvOp) (s : State) : State :=
  { s with env := [op], epc := 0 }

/-- The outcome is a next state of which `f` holds. -/
def nextIs (o : Host.Outcome State Fault Refusal) (f : State → Bool) : Bool :=
  match o with
  | .next t => f t
  | .fault _ => false
  | .refused _ => false

/-! ### Well-formedness and decoding -/

/-- R93 (3): the one check of `wellFormed` refuses CRTSTEP with `rd = rs1` and lets `rd ≠ rs1` pass. -/
theorem test_wellFormed_crtstep_destinations :
    (Instr.crtstep 6 6 8 9 10).wellFormed = false ∧ (Instr.crtstep 7 6 8 9 10).wellFormed = true := by decide

/-- Table E; 0000_0001 0011 0000 0001 0010 0000 0000, R92's row `00000001 dddd aaaa bbbb cccc 0000 0000`. -/
theorem test_decode_modexp : decode 0b00000001001100000001001000000000 = .ok (.modexp 3 0 1 2) := by decide

theorem test_decode_rsaep : decode 0b00000010001100000001001000000000 = .ok (.rsaep 3 0 1 2) := by decide

theorem test_decode_montred : decode 0b00000011001000000000000100000000 = .ok (.montred 2 0 1) := by decide

theorem test_decode_crtstep : decode 0b00000100011101101101101111000000 = .ok (.crtstep 7 6 13 11 12) := by decide

theorem test_decode_mrround : decode 0b00010000000000000001000000000000 = .ok (.mrround 0 1) := by decide

theorem test_decode_mrtest : decode 0b00010001000011110000111111111111 = .ok (.mrtest 15 4095) := by decide

theorem test_decode_lucas : decode 0b00010010000000100000000000000000 = .ok (.lucas 2) := by decide

theorem test_decode_jacobi : decode 0b00010011000000100000001100000001 = .ok (.jacobi 2 3 true) := by decide

theorem test_decode_issqr : decode 0b00010100000001000000000000000000 = .ok (.issqr 4) := by decide

/-- Table E, the illegal words, by the reason of R94. -/
theorem test_decode_unknown_opcode :
    decode 0x00000000 = .error .unknownOpcode ∧ decode 0xFFFFFFFF = .error .unknownOpcode ∧
    decode 0x05000000 = .error .unknownOpcode := by decide

theorem test_decode_unused_field :
    decode 0x01301201 = .error .unusedField ∧ decode 0x01301210 = .error .unusedField ∧
    decode 0x10101000 = .error .unusedField ∧ decode 0x1100102C = .error .unusedField ∧
    decode 0x12020001 = .error .unusedField ∧ decode 0x13000102 = .error .unusedField ∧
    decode 0x13001100 = .error .unusedField := by decide

theorem test_decode_same_destination : decode 0x046689A0 = .error .sameDestination := by decide

/-- A table word as the host numbers it: one 32-bit word, and a word placed for the next step is the one in execution. -/
theorem test_decodeTableWord : decodeTableWord 32 0x01301200 = some (.modexp 3 0 1 2) ∧ decodeTableWord 32 0 = none := by decide

theorem test_withFetchWord_runs_next (s : State) :
    step ((s.withFetchWord 32 0x13000100)) = exec (.jacobi 0 1 false) (s.withFetchWord 32 0x13000100) := by
  exact (step_withCommand s _).trans (engineTurn_exec rfl
    (show decode (BitVec.ofNat 32 (0x13000100 % 2 ^ 32)) = .ok (.jacobi 0 1 false) by decide))

/-! ### The commands: spec/95 tables M, G, C, R, T, L, J -/

/-- Rule R120's example, DOC0's `Decrypt(2790) = 65`. -/
theorem test_modexp_decrypts :
    nextIs (exec (.modexp 3 0 1 2) (running 0x01301200 [(0, 2790), (1, 2753), (2, 3233)]))
      (fun t => t.x 3 == 65 && t.statusWord == 0x00000002) = true := by decide +kernel

/-- Table M: exponent 0 modulo 1 is a fault, the destination unchanged. -/
theorem test_modexp_modulus_one_faults :
    nextIs (exec (.modexp 3 0 1 2) (running 0x01301200 [(0, 7), (1, 0), (2, 1), (3, 777)]))
      (fun t => t.x 3 == 777 && t.statusWord == 0x00000204 && t.ecmd == 0x01301200) = true := by decide +kernel

/-- Rule R125's example, DOC0's `Encrypt(65) = 2790`, with the message's register as destination. -/
theorem test_rsaep_encrypts_in_place :
    nextIs (exec (.rsaep 0 0 1 2) (running 0x02001200 [(0, 65), (1, 17), (2, 3233)]))
      (fun t => t.x 0 == 2790 && t.statusWord == 0x00000002) = true := by decide +kernel

/-- Program P4: the message equal to the modulus. -/
theorem test_rsaep_message_equal_modulus_faults :
    nextIs (exec (.rsaep 3 0 1 2) (running 0x02301200 [(0, 3233), (1, 17), (2, 3233), (3, 777)]))
      (fun t => t.x 3 == 777 && t.statusWord == 0x00000304 && t.ecmd == 0x02301200 && !t.irq) = true := by decide +kernel

/-- Table G. -/
theorem test_montred_product_of_forms :
    nextIs (exec (.montred 2 0 1) (running 0x03200100 [(0, 1705512), (1, 3233)])) (fun t => t.x 2 == 2879) = true := by
  decide +kernel

/-- Table G: the first `T` out of range. -/
theorem test_montred_operand_out_of_range :
    nextIs (exec (.montred 2 0 1) (running 0x03200100 [(0, 13885629267968), (1, 3233), (2, 5)]))
      (fun t => t.x 2 == 5 && t.statusWord == 0x00000204) = true := by decide +kernel

/-- Table C, first row: the difference is negative, the modulus is the floor modulus. -/
theorem test_crtstep_negative_difference :
    nextIs (exec (.crtstep 7 6 8 9 10) (running 0x047689A0 [(7, 12), (6, 53), (8, 4), (9, 61), (10, 38)]))
      (fun t => t.x 7 == 65 && t.x 6 == 3233) = true := by decide +kernel

/-- Table C: overflow of `R`; neither register is written. -/
theorem test_crtstep_product_overflows :
    nextIs (exec (.crtstep 7 6 8 9 10) (running 0x047689A0 [(7, 0), (6, 2 ^ 16383), (8, 0), (9, 2), (10, 0)]))
      (fun t => t.x 7 == 0 && t.x 6 == 2 ^ 16383 && t.statusWord == 0x00000404) = true := by decide +kernel

/-- Table R: a liar for the composite 221. -/
theorem test_mrround_liar :
    nextIs (exec (.mrround 0 1) (running 0x10001000 [(0, 221), (1, 174)])) (fun t => t.statusWord == 0x00000012) = true := by
  decide +kernel

/-- Table R: the witness `w - 1` is out of range. -/
theorem test_mrround_witness_out_of_range :
    nextIs (exec (.mrround 0 1) (running 0x10001000 [(0, 10), (1, 9)])) (fun t => t.statusWord == 0x00000204) = true := by
  decide +kernel

/-- Table T: the third answer is not drawn. -/
theorem test_mrtest_stops_at_first_witness :
    nextIs (exec (.mrtest 0 3) { running 0x11000003 [(0, 221)] with source := [174, 137, 5] })
      (fun t => t.statusWord == 0x00000002 && t.source == [5]) = true := by decide +kernel

/-- Table T: the source never answers; one answer has come and is used up. -/
theorem test_mrtest_blocks :
    nextIs (exec (.mrtest 0 5) { running 0x11000005 [(0, 221)] with source := [174] })
      (fun t => t.statusWord == 0x00000001 && t.source == [] && t.mrPassed == 1) = true := by decide +kernel

/-- Table L: the prime 11 is rejected under `LUCAS_D_FIRST = 5`. -/
theorem test_lucas_eleven_under_five :
    nextIs (exec (.lucas 0) { running 0x12000000 [(0, 11)] with lucasFirst := .five }) (fun t => !t.v && t.done) = true := by
  decide +kernel

/-- Table L: the composite 35 is accepted under `LUCAS_D_FIRST = -3`. -/
theorem test_lucas_thirty_five_under_minus_three :
    nextIs (exec (.lucas 0) (running 0x12000000 [(0, 35)])) (fun t => t.v && t.done) = true := by decide +kernel

/-- Table J, rule R183's example: -1, `STATUS` of Table S. -/
theorem test_jacobi_example :
    nextIs (exec (.jacobi 0 1 false) (running 0x13000100 [(0, 1001), (1, 9907)]))
      (fun t => t.statusWord == 0x00000062) = true := by decide +kernel

/-- Program P5: an even modulus faults and `JAC` keeps the earlier result. -/
theorem test_jacobi_even_modulus_faults :
    nextIs (exec (.jacobi 2 4 false) { running 0x13020400 [(2, 3), (4, 10)] with jac := 0b11 })
      (fun t => t.statusWord == 0x00000264 && t.ecmd == 0x13020400) = true := by decide +kernel

/-- Table J: `2^16382` is a square. -/
theorem test_issqr_large_square :
    nextIs (exec (.issqr 4) (running 0x14040000 [(4, 2 ^ 16382)])) (fun t => t.statusWord == 0x00000012) = true := by
  decide +kernel

/-- Table J: `2^64 - 1` is none. -/
theorem test_issqr_one_below_a_square :
    nextIs (exec (.issqr 4) (running 0x14040000 [(4, 2 ^ 64 - 1)])) (fun t => t.statusWord == 0x00000002) = true := by
  decide +kernel

/-! ### The window: spec/95 table W -/

/-- A limb write is read back; `x3` limb 0 is at 0x9800. -/
theorem test_limb_write_then_read :
    ((load [(3, 0)]).hostWrite 0x9800 4 0x0AE6).readAnswer 0x9800 4 = .data 0x00000AE6 := by decide +kernel

/-- The last limb of `x15` is at 0xFFFC; 0x10000 is outside. -/
theorem test_window_ends :
    (load [(15, 2 ^ 16383)]).readAnswer 0xFFFC 4 = .data 0x80000000 ∧ (load []).readAnswer 0x10000 4 = .busError := by
  decide +kernel

/-- R6: with another `RF_BASE` the register window starts there; below it only the control registers are. -/
theorem test_window_at_another_base :
    (let s : State := { load [(0, 65)] with rfBase := ⟨0x14, by decide⟩ }
     s.readAnswer 0x14 4 = .data 65 ∧ s.readAnswer 0x8014 4 = .busError ∧ s.readAnswer 0x10 4 = .data 0x01020010) := by
  decide +kernel

/-- R68, R97: one step of an LDR writes one limb and stays, the last one goes on. -/
theorem test_ldr_one_limb_a_step :
    nextIs (step (facing (.ldr 3 (BitVec.ofNat _ (2 ^ 32 + 7))) (load [(3, 0)])))
      (fun t => t.x 3 == 7 && t.limb.val == 1 && t.epc == 0) = true ∧
    nextIs (step { facing (.ldr 3 (BitVec.ofNat _ (2 ^ 16383))) (load [(3, 7)]) with limb := 511 })
      (fun t => t.x 3 == 2 ^ 16383 + 7 && t.limb.val == 0 && t.epc == 1) = true := by decide +kernel

/-- R68, R97: one step of an RDR reads one limb. -/
theorem test_rdr_one_limb_a_step :
    nextIs (step { facing (.rdr 3) (load [(3, 5 * 2 ^ 32 + 7)]) with limb := 1, gathered := 7 })
      (fun t => t.gathered == 5 * 2 ^ 32 + 7 && t.limb.val == 2 && t.answer == some (.data 5)) = true := by decide +kernel

/-- R45: an answer queued while a command is aborted stays queued (log 24). -/
theorem test_soft_reset_keeps_the_queue :
    (({ running 0x11000005 [(0, 221)] with source := [174] } : State).hostWrite 0x000C 4 0x80000000).source = [174] := by
  decide +kernel

/-- `CLRDONE` keeps `V`; bits other than 1, 2, 3 of the written word do nothing. -/
theorem test_status_write :
    (({ load [] with done := true, v := true } : State).hostWrite 0x0004 4 0x00000002).statusWord = 0x00000010 ∧
    (({ load [] with done := true, v := true } : State).hostWrite 0x0004 4 0xFFFFFFF1).statusWord = 0x00000012 := by
  decide +kernel

/-- `CTRL`: enables, reserved bits, soft reset by bit 31. -/
theorem test_ctrl_write :
    ((load []).hostWrite 0x000C 4 0x00000003).ctrlWord = 0x00000003 ∧
    (((load []).hostWrite 0x000C 4 0x00000003).hostWrite 0x000C 4 0x7FFFFFFC).ctrlWord = 0 ∧
    (((load []).hostWrite 0x000C 4 0x00000003).hostWrite 0x000C 4 0xFFFFFFFC).ctrlWord = 0 := by decide +kernel

/-- Program P4: a command issued while a fault is latched is dropped, and `CLRERR` leaves `OVR`. -/
theorem test_dropped_command_and_clear :
    (({ load [] with err := true, ecode := 3, ecmd := 0x02301200 } : State).hostWrite 0x0000 4 0x02301200).statusWord
      = 0x0000030C ∧
    (({ load [] with err := true, ecode := 3, ecmd := 0x02301200, ovr := true } : State).hostWrite 0x0004 4 4).statusWord
      = 0x00000008 := by decide +kernel

/-- Table S: an illegal word ends with `STATUS = 0x00000104`. -/
theorem test_illegal_word_status :
    nextIs (step (running 0x046689A0 [])) (fun t => t.statusWord == 0x00000104 && t.ecmd == 0x046689A0) = true := by
  decide +kernel

/-! ### Witnesses: concrete states and operands that meet the hypotheses of each obligation -/

theorem witness_DecodeOfEncode : (Instr.crtstep 15 0 0 15 15).wellFormed = true := by decide

theorem witness_EncodeOfDecode : decode 0x110F0FFF = .ok (.mrtest 15 4095) := by decide

theorem witness_StepRunsTheCommandInExecution :
    let s := running 0x14040000 [(4, 3249)]
    (s.busy = true ∧ decode s.cur = .ok (.issqr 4) ∧ s.env[s.epc]? = none) ∧
    ((facing .wait s).busy = true ∧ decode (facing .wait s).cur = .ok (.issqr 4) ∧
      (facing .wait s).env[(facing .wait s).epc]? = some .wait) ∧
    ((facing .engine s).busy = true ∧ decode (facing .engine s).cur = .ok (.issqr 4) ∧
      (facing .engine s).env[(facing .engine s).epc]? = some .engine) := by decide +kernel

/-- Every clause: an illegal word and an idle engine, at each way the engine's turn comes. -/
theorem witness_EngineTurnWithoutALegalCommand :
    (let s := running 0x01301201 []
     (s.busy = true ∧ decode s.cur = .error .unusedField ∧ s.env[s.epc]? = none) ∧
     ((facing .wait s).busy = true ∧ decode (facing .wait s).cur = .error .unusedField ∧
       (facing .wait s).env[(facing .wait s).epc]? = some .wait) ∧
     ((facing .engine s).busy = true ∧ decode (facing .engine s).cur = .error .unusedField ∧
       (facing .engine s).env[(facing .engine s).epc]? = some .engine)) ∧
    (let s := load []
     (s.busy = false ∧ s.env[s.epc]? = none) ∧
     ((facing .engine s).busy = false ∧ (facing .engine s).env[(facing .engine s).epc]? = some .engine)) := by
  decide +kernel

theorem witness_AcceptedCommandIsCompleted :
    let s := facing (.write 0x0000 4 0x047689A0) (load [])
    s.env[s.epc]? = some (.write 0x0000 4 0x047689A0) ∧ s.env[s.epc + 1]? = none ∧ s.busy = false ∧ s.err = false ∧
      decode 0x047689A0 = .ok (.crtstep 7 6 8 9 10) := by decide +kernel

theorem witness_CommandWriteIsAcceptedOrDropped :
    (let s := facing (.write 0x0000 4 0x00000000) (load [])
     s.env[s.epc]? = some (.write 0x0000 4 0x00000000) ∧ s.busy = false ∧ s.err = false) ∧
    (let s := facing (.write 0x0000 4 0x14040000) (running 0x14040000 [])
     s.env[s.epc]? = some (.write 0x0000 4 0x14040000) ∧ s.busy = true ∧ s.err = false) ∧
    (let s := { facing (.write 0x0000 4 0x14040000) (load []) with err := true, ecode := 1 }
     s.env[s.epc]? = some (.write 0x0000 4 0x14040000) ∧ s.busy = false ∧ s.err = true) := by decide +kernel

theorem witness_ModExpIsPowerModulo : 2 ≤ 2 ∧ modExp 5 0 2 = 1 ∧ modExp 0 1 2 = 0 := by decide +kernel

/-- The boundary moduli 1 and 2. -/
theorem witness_ModexpOutcome :
    (load [(2, 1)]).x 2 < 2 ∧ 2 ≤ (load [(2, 2)]).x 2 := by decide +kernel

/-- The clauses meet at modulus 2 and at message = modulus; modulus 0 with message 0 falls under the first only. -/
theorem witness_RsaepOutcome :
    (load [(0, 0), (2, 1)]).x 2 < 2 ∧
    (2 ≤ (load [(0, 2), (2, 2)]).x 2 ∧ (load [(0, 2), (2, 2)]).x 2 ≤ (load [(0, 2), (2, 2)]).x 0) ∧
    (2 ≤ (load [(0, 1), (2, 2)]).x 2 ∧ (load [(0, 1), (2, 2)]).x 0 < (load [(0, 1), (2, 2)]).x 2) := by decide +kernel

/-- The key of DOC0's worked example. -/
theorem witness_RsaRoundTrip :
    ∃ (s : State) (rm re rn rc rdx : Reg), rc ≠ rdx ∧ rc ≠ rn ∧ 2 ≤ s.x rn ∧ Squarefree (s.x rn) ∧ s.x rm < s.x rn ∧
      1 ≤ s.x re * s.x rdx ∧ ∀ p : Nat, p.Prime → p ∣ s.x rn → s.x re * s.x rdx % (p - 1) = 1 % (p - 1) := by
  have h0 : (load [(0, 65), (1, 17), (2, 3233), (4, 2753)]).x 0 = 65 := by decide +kernel
  have h1 : (load [(0, 65), (1, 17), (2, 3233), (4, 2753)]).x 1 = 17 := by decide +kernel
  have h2 : (load [(0, 65), (1, 17), (2, 3233), (4, 2753)]).x 2 = 53 * 61 := by decide +kernel
  have h4 : (load [(0, 65), (1, 17), (2, 3233), (4, 2753)]).x 4 = 2753 := by decide +kernel
  have p53 : Nat.Prime 53 := by norm_num
  have p61 : Nat.Prime 61 := by norm_num
  refine ⟨load [(0, 65), (1, 17), (2, 3233), (4, 2753)], 0, 1, 2, 3, 4, by decide, by decide, ?_⟩
  rw [h0, h1, h2, h4]
  refine ⟨by decide, (Nat.squarefree_mul (by decide)).2 ⟨p53.prime.squarefree, p61.prime.squarefree⟩, by decide, by decide, ?_⟩
  intro p hp hd
  obtain h | h := (Nat.Prime.dvd_mul hp).1 hd
  · rw [(Nat.prime_dvd_prime_iff_eq hp p53).1 h]
  · rw [(Nat.prime_dvd_prime_iff_eq hp p61).1 h]

/-- Even modulus, the least and the greatest `T` on each side of the second check, for `N = 1` (`k = 32`). -/
theorem witness_MontredOutcome :
    32 * ((Nat.size 1 + 31) / 32) = 32 ∧ (load [(1, 0)]).x 1 % 2 = 0 ∧
    ((load [(0, 2 ^ 32), (1, 1)]).x 1 % 2 = 1 ∧
      (load [(0, 2 ^ 32), (1, 1)]).x 1 * 2 ^ 32 ≤ (load [(0, 2 ^ 32), (1, 1)]).x 0) ∧
    ((load [(0, 2 ^ 32 - 1), (1, 1)]).x 1 % 2 = 1 ∧
      (load [(0, 2 ^ 32 - 1), (1, 1)]).x 0 < (load [(0, 2 ^ 32 - 1), (1, 1)]).x 1 * 2 ^ 32) := by decide +kernel

/-- Program P6: 65 and 2790 modulo 3233. -/
theorem witness_MontredMultipliesMontgomeryForms :
    32 * ((Nat.size 3233 + 31) / 32) = 32 ∧ (load [(0, 1705512), (1, 3233)]).x 1 % 2 = 1 ∧
    (load [(0, 1705512), (1, 3233)]).x 0 = (65 * 2 ^ 32 % 3233) * (2790 * 2 ^ 32 % 3233) ∧
    (load [(0, 716), (1, 3233)]).x 0 = 65 * 2 ^ 32 % 3233 := by decide +kernel

/-- Table C's corners: `r_i = 0`; overflow of `m`; overflow of `R`; the largest `m` without overflow. -/
theorem witness_CrtstepOutcome :
    (load [(9, 0)]).x 9 = 0 ∧
    (let s := load [(7, 2 ^ 16384 - 1), (6, 1), (8, 1), (9, 3), (10, 1)]
     s.x 9 ≠ 0 ∧ ((s.x 8 : Int) - s.x 7) * s.x 10 % s.x 9 = 1 ∧ (2 : Int) ^ Config.W ≤ s.x 7 + s.x 6 * (1 : Int)) ∧
    (let s := load [(7, 0), (6, 2 ^ 16383), (8, 0), (9, 2), (10, 0)]
     s.x 9 ≠ 0 ∧ 2 ^ Config.W ≤ s.x 6 * s.x 9) ∧
    (let s := load [(7, 2 ^ 16384 - 1), (6, 1), (8, 0), (9, 3), (10, 1)]
     s.x 9 ≠ 0 ∧ ((s.x 8 : Int) - s.x 7) * s.x 10 % s.x 9 = 0 ∧ (s.x 7 : Int) + s.x 6 * (0 : Int) < 2 ^ Config.W ∧
      s.x 6 * s.x 9 < 2 ^ Config.W) := by decide +kernel

theorem witness_CrtstepReconstructs :
    let s := load [(7, 12), (6, 53), (8, 4), (9, 61), (10, 38)]
    1 ≤ s.x 6 ∧ s.x 7 < s.x 6 ∧ 1 ≤ s.x 9 ∧ Nat.gcd (s.x 6) (s.x 9) = 1 ∧ s.x 6 * s.x 10 % s.x 9 = 1 % s.x 9 ∧
      s.x 6 * s.x 9 < 2 ^ Config.W := by decide +kernel

/-- The same key: `c = 2790`, `d = 2753`. -/
theorem witness_CrtDecryptionEqualsDirect :
    let s := load [(7, 12), (6, 53), (8, 4), (9, 61), (10, 38)]
    (1 ≤ 2753 % (61 - 1) ∧ 1 ≤ 2753 % (53 - 1) ∧ 61 * 53 < 2 ^ Config.W ∧ s.x 7 = 2790 ^ (2753 % (53 - 1)) % 53 ∧ s.x 6 = 53 ∧
      s.x 8 = 2790 ^ (2753 % (61 - 1)) % 61 ∧ s.x 9 = 61 ∧ 53 * s.x 10 % 61 = 1) ∧
    Nat.Prime 61 ∧ Nat.Prime 53 := by
  refine ⟨?_, by norm_num, by norm_num⟩
  decide +kernel

/-- Table C, message 150000, the second step: `R = 3233`, `r_3 = 47`, `t_3 = 14`. -/
theorem witness_CrtstepAddsOnePrime :
    let s := load [(7, 1282), (6, 3233), (8, 23), (9, 47), (10, 14)]
    (Nat.gcd (s.x 6) (s.x 9) = 1 ∧ 1 ≤ s.x 6 ∧ 1 ≤ 10553 % (s.x 9 - 1) ∧ s.x 6 * s.x 9 < 2 ^ Config.W ∧
      s.x 7 = 117060 ^ 10553 % s.x 6 ∧ s.x 8 = 117060 ^ (10553 % (s.x 9 - 1)) % s.x 9 ∧
      s.x 6 * s.x 10 % s.x 9 = 1 ∧ s.x 9 = 47) ∧ Nat.Prime 47 := by
  refine ⟨?_, by norm_num⟩
  decide +kernel

/-- Each side of the range `[2, w - 2]`, and the greatest and least candidates of the clauses. -/
theorem witness_MrroundOutcome :
    (load [(0, 7)]).x 0 ∈ [2, 3, 5, 7] ∧ (load [(0, 9)]).x 0 ∈ [0, 1, 4, 6, 8, 9] ∧
    (let s := load [(0, 10), (1, 1)]
     10 ≤ s.x 0 ∧ s.x 1 < 2) ∧
    (let s := load [(0, 10), (1, 9)]
     10 ≤ s.x 0 ∧ s.x 0 - 2 < s.x 1) ∧
    (let s := load [(0, 10), (1, 8)]
     10 ≤ s.x 0 ∧ 2 ≤ s.x 1 ∧ s.x 1 ≤ s.x 0 - 2) := by decide +kernel

/-- 174 does not show 221 composite (table R). -/
theorem not_isWitness_221_174 : ¬ IsWitness 221 174 := by
  intro h
  exact (h 2 55 rfl rfl).2 1 (by decide) (by decide +kernel)

/-- 137 shows 221 composite (table R). -/
theorem isWitness_221_137 : IsWitness 221 137 := by
  intro a m hm h
  have ha : a = 2 := by
    rcases a with _ | _ | _ | a
    · omega
    · omega
    · rfl
    · rw [pow_succ, pow_succ, pow_succ] at h
      have : 220 = 8 * (2 ^ a * m) := by rw [← Nat.succ_inj] at h ⊢; linarith
      omega
  subst ha
  obtain rfl : m = 55 := by omega
  exact ⟨by decide +kernel, by decide +kernel⟩

/-- Table T: no rounds, all rounds passed, the second answer a witness. -/
theorem witness_MrtestOutcome :
    (load [(0, 2)]).x 0 ∈ [2, 3, 5, 7] ∧ (load [(0, 0)]).x 0 ∈ [0, 1, 4, 6, 8, 9] ∧
    (let s : State := { load [(0, 221)] with source := [174, 174] }
     10 ≤ s.x 0 ∧ (2 : BitVec 12).toNat - s.mrPassed = 2 ∧ 2 ≤ s.source.length ∧
      ∀ a ∈ s.source.take 2, 2 ≤ a ∧ a ≤ s.x 0 - 2 ∧ ¬ IsWitness (s.x 0) a) ∧
    (let s : State := { load [(0, 221)] with source := [174, 137, 5] }
     1 < (3 : BitVec 12).toNat - s.mrPassed ∧ s.source[1]? = some 137 ∧ 137 ≤ s.x 0 - 2 ∧ IsWitness (s.x 0) 137 ∧
      ∀ a ∈ s.source.take 1, 2 ≤ a ∧ a ≤ s.x 0 - 2 ∧ ¬ IsWitness (s.x 0) a) := by
  have hx : (load [(0, 221)]).x 0 = 221 := by decide +kernel
  have hy : ∀ l, ({ load [(0, 221)] with source := l } : State).x 0 = 221 := fun _ => hx
  refine ⟨by decide +kernel, by decide +kernel, ?_, ?_⟩
  · refine ⟨by rw [hy]; decide, by decide +kernel, by decide, ?_⟩
    rw [hy]
    intro a ha
    obtain rfl : a = 174 := by simpa using ha
    exact ⟨by decide, by decide, not_isWitness_221_174⟩
  · refine ⟨by decide +kernel, rfl, by rw [hy]; decide, by rw [hy]; exact isWitness_221_137, ?_⟩
    rw [hy]
    intro a ha
    obtain rfl : a = 174 := by simpa using ha
    exact ⟨by decide, by decide, not_isWitness_221_174⟩

/-- Both clauses, the second with one answer for two rounds. -/
theorem witness_MrtestBlocksWithoutAnswers :
    (let s := load [(0, 10)]
     10 ≤ s.x 0 ∧ s.mrPassed < (1 : BitVec 12).toNat ∧ s.source = []) ∧
    (let s : State := { load [(0, 221)] with source := [174] }
     10 ≤ s.x 0 ∧ s.source.length < (2 : BitVec 12).toNat - s.mrPassed ∧ (∀ a ∈ s.source, 2 ≤ a ∧ a ≤ s.x 0 - 2) ∧
      ∀ a ∈ s.source, ¬ IsWitness (s.x 0) a) := by
  have hy : ({ load [(0, 221)] with source := [174] } : State).x 0 = 221 := by decide +kernel
  refine ⟨by decide +kernel, by rw [hy]; decide, by decide +kernel, ?_, ?_⟩ <;> rw [hy] <;> intro a ha <;>
    obtain rfl : a = 174 := by simpa using ha
  · decide
  · exact not_isWitness_221_174

theorem witness_PrimesPassMillerRabin :
    (let s : State := { load [(0, 11), (1, 9)] with source := [0, 11] }
     s.x 0 = 11 ∧ 2 ≤ s.x 1 ∧ s.x 1 ≤ s.x 0 - 2 ∧ (2 : BitVec 12).toNat - s.mrPassed ≤ s.source.length) ∧
    Nat.Prime 11 := by
  refine ⟨?_, by norm_num⟩
  decide +kernel

/-- A draw at its upper bound and one beyond; an answer supplied behind another. -/
theorem witness_DrawLiesInItsRange :
    (2 ≤ 8 ∧ drawFrom 2 8 8 = 8 ∧ drawFrom 2 8 9 = 4) ∧
    (let s : State := { facing (.supply 8) (load []) with source := [5] }
     s.env[s.epc]? = some (.supply 8) ∧ nextIs (step s) (fun t => t.source == [5, 8]) = true) := by decide +kernel

theorem witness_LucasShortcutsEvenAndSquares :
    (load [(0, 7)]).x 0 ∈ [2, 3, 5, 7] ∧ (load [(0, 9)]).x 0 ∈ [0, 1, 4, 6, 8, 9] ∧
    (10 ≤ (load [(0, 10)]).x 0 ∧ (load [(0, 10)]).x 0 % 2 = 0) ∧
    (10 ≤ (load [(0, 25)]).x 0 ∧ 5 * 5 = (load [(0, 25)]).x 0) := by decide +kernel

/-- A number between two consecutive squares is none. -/
theorem not_square {n : Nat} (k : Nat) (h₁ : k * k < n) (h₂ : n < (k + 1) * (k + 1)) : ¬ ∃ r : Nat, r * r = n := by
  rintro ⟨r, rfl⟩
  have h₃ := Nat.mul_self_lt_mul_self_iff.1 h₁
  have h₄ := Nat.mul_self_lt_mul_self_iff.1 h₂
  omega

/-- Table L: 13 under -3 ends at the second trial, 5; 11 under 5 at the fourth, -11, with the symbol 0. -/
theorem witness_LucasOutcome :
    (let s := load [(0, 13)]
     11 ≤ s.x 0 ∧ s.x 0 % 2 = 1 ∧ (¬ ∃ r : Nat, r * r = s.x 0) ∧ (5 : Int) = trialD s.lucasFirst 1 ∧ EndsSearch 5 (s.x 0) ∧
      ∀ j : Nat, j < 1 → ¬ EndsSearch (trialD s.lucasFirst j) (s.x 0)) ∧
    (let s : State := { load [(0, 11)] with lucasFirst := .five }
     11 ≤ s.x 0 ∧ s.x 0 % 2 = 1 ∧ (¬ ∃ r : Nat, r * r = s.x 0) ∧ (-11 : Int) = trialD s.lucasFirst 3 ∧
      EndsSearch (-11) (s.x 0) ∧ ∀ j : Nat, j < 3 → ¬ EndsSearch (trialD s.lucasFirst j) (s.x 0)) := by
  have h13 : (load [(0, 13)]).x 0 = 13 := by decide +kernel
  have l13 : (load [(0, 13)]).lucasFirst = .minusThree := by decide +kernel
  have h11 : ({ load [(0, 11)] with lucasFirst := .five } : State).x 0 = 11 := by decide +kernel
  refine ⟨?_, ?_⟩
  · simp only [h13, l13]
    refine ⟨by decide, by decide, not_square 3 (by decide) (by decide), by decide, Or.inr ⟨by norm_num, by decide⟩, ?_⟩
    intro j hj
    obtain rfl : j = 0 := by omega
    rw [EndsSearch, show trialD .minusThree 0 = -3 by decide, show jacobiSym (-3) 13 = 1 by norm_num]
    decide
  · simp only [h11]
    refine ⟨by decide, by decide, not_square 3 (by decide) (by decide), by decide, Or.inl (by norm_num), ?_⟩
    intro j hj
    interval_cases j
    · rw [EndsSearch, show trialD .five 0 = 5 by decide, show jacobiSym 5 11 = 1 by norm_num]
      decide
    · rw [EndsSearch, show trialD .five 1 = -7 by decide, show jacobiSym (-7) 11 = 1 by norm_num]
      decide
    · rw [EndsSearch, show trialD .five 2 = 9 by decide, show jacobiSym 9 11 = 1 by norm_num]
      decide

theorem witness_LucasSearchEnds : 11 ≤ 11 ∧ 11 % 2 = 1 := by decide

theorem witness_LucasUIsTheSequence : 11 ≤ 27 ∧ 27 % 2 = 1 ∧ (5 : Int) % 4 = 1 ∧ (-7 : Int) % 4 = 1 ∧ lucasU 27 5 = 21 := by
  decide +kernel

theorem witness_LiteralDiscriminantAcceptsTwoModThree :
    let s := load [(0, 35)]
    s.lucasFirst = .minusThree ∧ 11 ≤ s.x 0 ∧ s.x 0 % 2 = 1 ∧ (¬ ∃ r : Nat, r * r = s.x 0) ∧ s.x 0 % 3 = 2 := by
  have h : (load [(0, 35)]).x 0 = 35 := by decide +kernel
  refine ⟨by decide +kernel, ?_⟩
  rw [h]
  exact ⟨by decide, by decide, not_square 5 (by decide) (by decide), by decide⟩

/-- The moduli 0 and 1, with both signs. -/
theorem witness_JacobiOutcome :
    (load [(0, 5), (1, 0)]).x 1 % 2 = 0 ∧ (load [(0, 5), (1, 1)]).x 1 % 2 = 1 ∧
    jacobiSym (if false = true then -((load [(0, 5), (1, 1)]).x 0 : Int) else (load [(0, 5), (1, 1)]).x 0) 1 = 1 ∧
    jacobiSym (if true = true then -((load [(0, 5), (1, 1)]).x 0 : Int) else (load [(0, 5), (1, 1)]).x 0) 1 = 1 := by
  refine ⟨by decide +kernel, by decide +kernel, ?_, ?_⟩ <;> exact jacobiSym.one_right _

theorem witness_JacobiVanishesOnCommonFactor : 1 % 2 = 1 ∧ jacobi (-3) 9 = 0 ∧ jacobi (-3) 1 = 1 := by decide +kernel

theorem witness_GcdFollowsItsRule : gcdOf 7 0 = 7 ∧ gcdOf 12 18 = 6 := by decide

/-- Each code: 2 by MODEXP, 3 by RSAEP, 4 by CRTSTEP. -/
theorem witness_FaultsArePrecise :
    let s := running 0x01301200 [(0, 2), (1, 1), (2, 1), (6, 2 ^ 16383), (7, 0), (8, 0), (9, 2), (10, 0)]
    s.err = false ∧ nextIs (exec (.modexp 3 0 1 2) s) (fun t => t.err && t.ecode == 2) = true ∧
    nextIs (exec (.rsaep 3 0 1 9) s) (fun t => t.err && t.ecode == 3) = true ∧
    nextIs (exec (.crtstep 7 6 8 9 10) s) (fun t => t.err && t.ecode == 4) = true := by decide +kernel

theorem witness_VerifiersNeverFault :
    let s := running 0x14000000 [(0, 0)]
    nextIs (exec (.mrtest 0 0) s) (fun t => !t.busy) = true ∧ nextIs (exec (.lucas 0) s) (fun t => !t.busy) = true ∧
    nextIs (exec (.issqr 0) s) (fun t => !t.busy) = true := by decide +kernel

/-- Every command answers a next state from every state, so the hypothesis is met by each constructor. -/
theorem witness_CommandsWriteOnlyTheirDestinations (i : Instr) (s : State) : ∃ t : State, exec i s = .next t :=
  exec_next i s

/-- MRTEST consumes an answer; JACOBI is not MRTEST and answers a next state. -/
theorem witness_CommandsTouchNoOtherAgent :
    nextIs (exec (.mrtest 0 1) { running 0x11000001 [(0, 221)] with source := [137, 5] }) (fun t => t.source == [5]) = true ∧
    (∀ (rs1 : Reg) (imm12 : BitVec 12), Instr.jacobi 0 1 false ≠ .mrtest rs1 imm12) ∧
    ∃ t : State, exec (.jacobi 0 1 false) (load []) = .next t :=
  ⟨by decide +kernel, nofun, exec_next _ _⟩

/-- A command that ends and one that faults, from a state with `BUSY = 1`. -/
theorem witness_CommandsWriteOnlyTheirFlags :
    (running 0x14000000 [(0, 16)]).busy = true ∧
    nextIs (exec (.issqr 0) (running 0x14000000 [(0, 16)])) (fun t => !t.busy && t.done) = true ∧
    nextIs (exec (.jacobi 0 0 false) (running 0x13000000 [(0, 16)])) (fun t => !t.busy && t.err) = true := by decide +kernel

theorem controlInv_reset : ControlInv State.reset := by
  unfold ControlInv
  decide

theorem witness_EveryStepKeepsControlInvariant :
    ControlInv State.reset ∧ step State.reset = .next State.reset :=
  ⟨controlInv_reset, rfl⟩

/-- The random source answers while a command is in execution. -/
theorem witness_NothingVisibleChangesWhileBusy :
    let s := facing (.supply 5) (running 0x14000000 [(0, 16)])
    s.busy = true ∧ nextIs (step s) (fun t => t.busy) = true := by decide +kernel

/-- A limb write, and an LDR. -/
theorem witness_IdleRegistersChangeOnlyByTheHost :
    (let s := facing (.write 0x9800 4 7) (load [(3, 0)])
     s.busy = false ∧ nextIs (step s) (fun t => t.x 3 != s.x 3) = true) ∧
    (let s := facing (.ldr 3 7) (load [(3, 0)])
     s.busy = false ∧ nextIs (step s) (fun t => t.x 3 != s.x 3) = true) := by decide +kernel

/-- A latched fault and a dropped command. -/
theorem witness_LatchedFaultStaysUntilCleared :
    let s : State := { facing (.write 0x0000 4 1) (load []) with err := true, ecode := 4, ecmd := 0x047689A0 }
    ControlInv s ∧ s.err = true ∧ nextIs (step s) (fun t => t.err) = true := by
  refine ⟨?_, by decide +kernel, by decide +kernel⟩
  unfold ControlInv
  decide

theorem witness_OverrunOnlyByDroppedCommand :
    let s := facing (.write 0x0000 4 1) (running 0x14000000 [(0, 16)])
    s.ovr = false ∧ nextIs (step s) (fun t => t.ovr) = true := by decide +kernel

/-- A completion and a fault. -/
theorem witness_InterruptLineAfterCompletion :
    ControlInv (running 0x14000000 [(0, 16)]) ∧ (running 0x14000000 [(0, 16)]).busy = true ∧
    nextIs (exec (.issqr 0) (running 0x14000000 [(0, 16)])) (fun t => !t.busy && t.done) = true ∧
    nextIs (exec (.jacobi 0 0 false) (running 0x14000000 [(0, 16)])) (fun t => !t.busy && t.err) = true := by
  refine ⟨?_, by decide +kernel, by decide +kernel, by decide +kernel⟩
  unfold ControlInv
  decide

/-! ### Runs that come to rest -/

/-- A step that leads back to its own state leads there for ever. -/
theorem stateAt_fixed {s : State} {n : Nat} (h : afterStep (stateAt s n) = stateAt s n) (k : Nat) :
    stateAt s (n + k) = stateAt s n := by
  induction k with
  | zero => rfl
  | succ k ih => rw [Nat.add_succ, stateAt, ih, h]

/-- ISSQR at its completion: weak fairness and the source's answers ask nothing of the run, which is idle after one step. -/
theorem witness_CommandsEndUnderFairness :
    (running 0x14000000 [(0, 16)]).busy = true ∧ WeaklyFair (running 0x14000000 [(0, 16)]) ∧
      SourceAnswers (running 0x14000000 [(0, 16)]) := by
  have h0 : drawPending (stateAt (running 0x14000000 [(0, 16)]) 0) = false := by decide +kernel
  have h1 : drawPending (stateAt (running 0x14000000 [(0, 16)]) 1) = false := by decide +kernel
  have t1 : engineHasTurn (stateAt (running 0x14000000 [(0, 16)]) 1) = true := by decide +kernel
  have hb : (stateAt (running 0x14000000 [(0, 16)]) 1).busy = false := by decide +kernel
  have he : (stateAt (running 0x14000000 [(0, 16)]) 1).env[(stateAt (running 0x14000000 [(0, 16)]) 1).epc]? = none := by
    decide +kernel
  have hf := stateAt_fixed (s := running 0x14000000 [(0, 16)]) (n := 1) (by
    rw [afterStep, step_over he, engineTurn_idle hb])
  refine ⟨by decide +kernel, fun n _ => ⟨1 + n, by omega, by rw [hf]; exact t1⟩, fun n hn => ⟨1 + n, by omega, by rw [hf]; exact h1⟩⟩

/-- A host that issues ISSQR on `x4` and waits. -/
def squareTest : State :=
  { load [(4, 3249)] with env := [issue 0x14040000, .wait], epc := 0 }

/-- Every limb of `x4` is written, nothing else. -/
def onlyX4 : Written := fun i _ => i == 4

/-- The launch premises hold of that run; the second run starts from the same state but for the value 1 in `x5`. -/
theorem witness_UnwrittenRegistersDoNotMatter :
    LaunchPremises onlyX4 squareTest ∧
    squareTest.setX 5 1 = { squareTest with big := (squareTest.setX 5 1).big } ∧ (squareTest.setX 5 1).x 5 = 1 ∧
    ∀ (i : Reg) (j : Fin Config.LIMBS), onlyX4 i j = true →
      limbOf ((squareTest.setX 5 1).bigReg i) j = limbOf (squareTest.bigReg i) j := by
  have hb : (stateAt squareTest 3).busy = false := by decide +kernel
  have he : (stateAt squareTest 3).env[(stateAt squareTest 3).epc]? = none := by decide +kernel
  have hf := stateAt_fixed (s := squareTest) (n := 3) (by rw [afterStep, step_over he, engineTurn_idle hb])
  have upto : ∀ p : State → Prop, p (stateAt squareTest 0) → p (stateAt squareTest 1) → p (stateAt squareTest 2) →
      p (stateAt squareTest 3) → ∀ n, p (stateAt squareTest n) := by
    intro p p0 p1 p2 p3 n
    match n with
    | 0 => exact p0
    | 1 => exact p1
    | 2 => exact p2
    | n + 3 => rw [Nat.add_comm, hf]; exact p3
  have drawless : ∀ n, drawPending (stateAt squareTest n) = false :=
    upto (fun t => drawPending t = false) (by decide +kernel) (by decide +kernel) (by decide +kernel) (by decide +kernel)
  have waits : ∀ (w : Written) (t : State), t.env[t.epc]? = some .wait → issuesOnlyOnWritten w t = true := by
    intro w t h
    rw [issuesOnlyOnWritten, h]
  refine ⟨⟨rfl, rfl, rfl, ?_, ?_, ?_⟩, rfl, by decide +kernel, ?_⟩
  · intro n
    match n with
    | 0 => decide +kernel
    | 1 => exact waits _ _ (by decide +kernel)
    | 2 => exact waits _ _ (by decide +kernel)
    | n + 3 => rw [Nat.add_comm, hf, issuesOnlyOnWritten, he]
  · exact upto (fun t => accessesAsExpanded t = true) (by decide +kernel) (by decide +kernel) (by decide +kernel) (by decide +kernel)
  · intro n hn
    rw [drawless n] at hn
    cases hn
  · intro i j hi
    obtain rfl : i = 4 := by simpa [onlyX4] using hi
    rfl

/-- Idle, busy with a command that has destinations, and busy with an illegal word. -/
theorem witness_SoftResetKeepsTheRegisters :
    (let s := facing (.write 0x000C 4 0x80000000) (load [])
     s.env[s.epc]? = some (.write 0x000C 4 0x80000000) ∧ (0x80000000 : Word).getLsbD 31 = true ∧ s.busy = false) ∧
    (let s := facing (.write 0x000C 4 0xFFFFFFFC) (running 0x047689A0 [])
     s.env[s.epc]? = some (.write 0x000C 4 0xFFFFFFFC) ∧ (0xFFFFFFFC : Word).getLsbD 31 = true ∧ s.busy = true ∧
      decode s.cur = .ok (.crtstep 7 6 8 9 10) ∧ (8 : Reg) ≠ 7 ∧ (8 : Reg) ≠ 6) ∧
    (let s := facing (.write 0x000C 4 0x80000000) (running 0x046689A0 [])
     s.env[s.epc]? = some (.write 0x000C 4 0x80000000) ∧ s.busy = true ∧ decode s.cur = .error .sameDestination) := by
  decide +kernel

theorem witness_HardwareResetClearsControl :
    let s := facing .hardReset (running 0x11000005 [(0, 221)])
    s.env[s.epc]? = some .hardReset := by decide +kernel

/-- A read and a write entry; the last limb of the last register. -/
theorem witness_LimbAccessWhileIdle :
    ((facing (.read 0x0004 4) (load [])).env[(facing (.read 0x0004 4) (load [])).epc]? = some (.read 0x0004 4) ∧
      (facing (.write 0xFFFC 4 1) (load [])).env[(facing (.write 0xFFFC 4 1) (load [])).epc]? = some (.write 0xFFFC 4 1)) ∧
    (load [(15, 0)]).busy = false ∧
    0xFFFC = (load [(15, 0)]).rfBase.val + 4 * Config.LIMBS * (15 : Reg).val + 4 * (511 : Fin Config.LIMBS).val ∧
    ((15 : Reg), (510 : Fin Config.LIMBS)) ≠ (15, 511) := by decide +kernel

theorem witness_RegisterIsTheSumOfItsLimbs : (load [(15, 2 ^ 16383)]).busy = false := by decide +kernel

theorem witness_RegisterWindowClosedWhileBusy :
    let s := running 0x14000000 []
    s.busy = true ∧ s.rfBase.val ≤ 0x8000 ∧ s.rfBase.val ≤ 0xFFFC ∧ 0x0010 ∈ [0x0000, 0x0004, 0x0008, 0x000C, 0x0010] := by
  decide +kernel

/-- Each of the four clauses at its boundary: sizes 3 and 8, address 1, 0x14 and 0x7FFC, 0x10000. -/
theorem witness_RefusedAccessesChangeNothing :
    let s := load []
    3 ≠ 4 ∧ 8 ≠ 4 ∧ 1 % 4 ≠ 0 ∧ (0x0014 ≤ 0x0014 ∧ 0x0014 < s.rfBase.val) ∧ (0x0014 ≤ 0x7FFC ∧ 0x7FFC < s.rfBase.val) ∧
    s.rfBase.val + 4 * Config.LIMBS * Config.NREG ≤ 0x10000 := by decide +kernel

theorem witness_ControlRegisterAccess : (0x7FFFFFFF : Word).getLsbD 31 = false := by decide

/-- Idle at the first limb, and busy at the last. -/
theorem witness_LdrExpansionLoadsTheRegister :
    (let s := facing (.ldr 3 7) (load [])
     s.busy = false ∧ s.env[s.epc]? = some (.ldr 3 7) ∧ s.limb.val = 0) ∧
    (let s : State := { facing (.ldr 3 7) (running 0x14000000 []) with limb := 511 }
     s.env[s.epc]? = some (.ldr 3 7) ∧ 0x9FFC = s.rfBase.val + 4 * Config.LIMBS * (3 : Reg).val + 4 * s.limb.val ∧
       s.busy = true) := by decide +kernel

/-- Idle at the first limb, and busy at the last. -/
theorem witness_RdrReadsTheRegister :
    (let s := facing (.rdr 5) (load [(5, 65)])
     s.busy = false ∧ s.env[s.epc]? = some (.rdr 5) ∧ s.limb.val = 0) ∧
    (let s : State := { facing (.rdr 5) (running 0x14000000 []) with limb := 511 }
     s.env[s.epc]? = some (.rdr 5) ∧ s.busy = true) := by decide +kernel

/-- Each kind of entry; both outcomes of a branch. -/
theorem witness_WaitAndBranchFollowStatus :
    (let s := facing .wait (load [])
     s.env[s.epc]? = some .wait ∧ s.busy = false) ∧
    (let s := facing (.berr 3) (load [])
     s.env[s.epc]? = some (.berr 3) ∧ s.polled.getLsbD 2 = false) ∧
    (let s := facing (.bv 3) (load [])
     s.env[s.epc]? = some (.bv 3) ∧ s.polled.getLsbD 4 = false) ∧
    (let s : State := { facing (.bnv 3) (load []) with polled := 0x00000016 }
     s.env[s.epc]? = some (.bnv 3) ∧ s.polled.getLsbD 4 = true) := by decide +kernel

end Sys2Proof.Tests
end

section
/-! What every step of the machine keeps (00_scope.md R6), and what a host access does at its entry and, while the engine is idle,
to a limb (20_memory.md R62, R64, R67). -/

namespace Sys2Proof.Machine

/-! ### Parameters -/

/-- The engine's turn changes the engine's own fields and, MRTEST, the source's answers only (10_state.md R31, R36). -/
theorem engineTurn_frame {s t : State} (h : engineTurn s = .next t) :
    t = { t with cur := s.cur, lucasFirst := s.lucasFirst, rfBase := s.rfBase, fresh := s.fresh, env := s.env, epc := s.epc,
                 answer := s.answer, polled := s.polled, limb := s.limb, gathered := s.gathered } := by
  unfold engineTurn at h
  split at h
  · split at h
    · exact exec_frame h
    · cases h; rfl
  · cases h; rfl

/-- The engine's turn writes neither open parameter (00_scope.md R6). -/
theorem engineTurn_keepsParameters {s t : State} (h : engineTurn s = .next t) :
    t.lucasFirst = s.lucasFirst ∧ t.rfBase = s.rfBase := by
  rw [engineTurn_frame h]; exact ⟨rfl, rfl⟩

/-- No entry of the environment's program writes an open parameter (R6). -/
theorem envStep_keepsParameters {op : EnvOp} {s t : State} (h : envStep op s = .next t) :
    t.lucasFirst = s.lucasFirst ∧ t.rfBase = s.rfBase := by
  cases op <;> simp only [envStep] at h
  case engine => exact engineTurn_keepsParameters (s := s.advance) h
  case wait =>
    split at h
    · exact engineTurn_keepsParameters h
    · cases h; exact ⟨rfl, rfl⟩
  case write => cases h; exact ⟨s.hostWrite_lucasFirst _ _ _, s.hostWrite_rfBase _ _ _⟩
  case ldr => cases h; exact ⟨s.hostWrite_lucasFirst _ _ _, s.hostWrite_rfBase _ _ _⟩
  all_goals cases h; exact ⟨rfl, rfl⟩

/-- No step writes an open parameter (R6; log 5). -/
theorem step_keepsParameters {s t : State} (h : step s = .next t) : t.lucasFirst = s.lucasFirst ∧ t.rfBase = s.rfBase := by
  cases ho : s.env[s.epc]? with
  | none => exact engineTurn_keepsParameters (step_over ho ▸ h)
  | some op => exact envStep_keepsParameters (step_env ho ▸ h)

/-! ### Limbs -/

/-- A limb is the 32-bit number a big register holds from bit `32 * j` on (20_memory.md R62). -/
theorem limbOf_bigReg (s : State) (i : Reg) (j : Fin Config.LIMBS) :
    limbOf (s.bigReg i) j = BitVec.ofNat 32 (s.x i / 2 ^ (32 * j.val)) := by
  rw [← Nat.shiftRight_eq_div_pow]; rfl

/-- While idle a read of a limb answers it (R64). -/
theorem State.readAnswer_limb_idle {s : State} (h : s.busy = false) (i : Reg) (j : Fin Config.LIMBS) :
    s.readAnswer (limbAddr s.rfBase i j) 4 = .data (limbOf (s.bigReg i) j) := by
  rw [(s.limb_answers i j).1, h]; rfl

/-- While idle a write to a limb is performed (R64). -/
theorem State.writeAnswer_limb_idle {s : State} (h : s.busy = false) (i : Reg) (j : Fin Config.LIMBS) :
    s.writeAnswer (limbAddr s.rfBase i j) 4 = .written := by
  rw [(s.limb_answers i j).2, h]; rfl

/-- Replacing one limb of one register leaves every other limb of every register (R64). -/
theorem limbOf_setBig_withLimb_ne (s : State) (i i' : Reg) (j j' : Fin Config.LIMBS) (w : Word) (h : (i', j') ≠ (i, j)) :
    limbOf ((s.setBig i (withLimb (s.bigReg i) j w)).bigReg i') j' = limbOf (s.bigReg i') j' := by
  by_cases hi : i' = i
  · subst hi
    have hj : j' ≠ j := fun e => h (by rw [e])
    rw [State.bigReg_setBig_same, limbOf_withLimb_ne _ w hj]
  · rw [State.bigReg_setBig_ne s _ hi]

/-- While idle the word written to a limb is read back (R64). -/
theorem State.readAnswer_hostWrite_limb_same {s : State} (h : s.busy = false) (i : Reg) (j : Fin Config.LIMBS) (w : Word) :
    (s.hostWrite (limbAddr s.rfBase i j) 4 w).readAnswer (limbAddr s.rfBase i j) 4 = .data w := by
  rw [s.hostWrite_limb i j w h]
  exact (State.readAnswer_limb_idle (s := s.setBig i _) h i j).trans
    (by rw [State.bigReg_setBig_same, limbOf_withLimb_same])

/-- While idle a write to one limb changes the answer of no other (R64). -/
theorem State.readAnswer_hostWrite_limb_ne {s : State} (h : s.busy = false) {i i' : Reg} {j j' : Fin Config.LIMBS} (w : Word)
    (hne : (i', j') ≠ (i, j)) :
    (s.hostWrite (limbAddr s.rfBase i j) 4 w).readAnswer (limbAddr s.rfBase i' j') 4
      = s.readAnswer (limbAddr s.rfBase i' j') 4 := by
  rw [s.hostWrite_limb i j w h, State.readAnswer_limb_idle h]
  exact (State.readAnswer_limb_idle (s := s.setBig i _) h i' j').trans
    (by rw [limbOf_setBig_withLimb_ne s i i' j j' w hne])

/-- While idle a write to a limb changes big registers only (R64, R67). -/
theorem State.hostWrite_limb_frame {s : State} (h : s.busy = false) (i : Reg) (j : Fin Config.LIMBS) (w : Word) :
    s.hostWrite (limbAddr s.rfBase i j) 4 w = { s with big := (s.hostWrite (limbAddr s.rfBase i j) 4 w).big } := by
  rw [s.hostWrite_limb i j w h]; rfl

/-! ### Host accesses -/

/-- At an entry that reads, the answer and the host's index are all that changes (20_memory.md R67; log 8, 12). -/
theorem step_read {s : State} {addr size : Nat} (h : s.env[s.epc]? = some (.read addr size)) :
    step s = .next { s with answer := some (s.readAnswer addr size), epc := s.epc + 1 } :=
  step_env h

/-- At an entry that writes, the write is done and answered and the host's index moves on (20_memory.md R60; log 8, 12). -/
theorem step_write {s : State} {addr size : Nat} {w : Word} (h : s.env[s.epc]? = some (.write addr size w)) :
    step s = .next { s.hostWrite addr size w with answer := some (s.writeAnswer addr size), epc := s.epc + 1 } := by
  rw [step_env h, envStep, ← s.hostWrite_epc addr size w]; rfl

end Sys2Proof.Machine

namespace Sys2Proof

open Sys2Proof.Machine

/-- Settles O7: every step answers a next state, and neither the engine's turn nor an entry of the environment writes a
parameter. -/
theorem everyStepAnswersNextAndKeepsParameters : Obligations.EveryStepAnswersNextAndKeepsParameters := by
  intro s
  obtain ⟨t, ht⟩ := step_next s
  exact ⟨t, ht, step_keepsParameters ht⟩

/-- Settles O51: the two kinds of entries by their step, the limb by the window's laws at its address. -/
theorem limbAccessWhileIdle : Obligations.LimbAccessWhileIdle := by
  refine ⟨fun s addr size w => ⟨step_read, step_write⟩, ?_⟩
  rintro s i j w a hb rfl
  refine ⟨?_, s.writeAnswer_limb_idle hb i j, s.readAnswer_hostWrite_limb_same hb i j w,
    fun i' j' hne => s.readAnswer_hostWrite_limb_ne hb w hne, s.hostWrite_limb_frame hb i j w⟩
  rw [← limbOf_bigReg]
  exact s.readAnswer_limb_idle hb i j

end Sys2Proof
end

section
/-! What a host write, the engine's turn and a step can do, each said once; from it the control invariant (10_state.md R33, R37),
the frames of the commands (R22, R36, R38, R39), the resets (R44, R45) and the control registers (R32 to R35). -/

namespace Sys2Proof.Machine

/-! ### Addresses -/

/-- An access that reaches a limb is an aligned word access to that limb's address (20_memory.md R61, R63). -/
theorem eq_limbAddr_of_targetOf {base : Config.RfBase} {addr size : Nat} {i : Reg} {j : Fin Config.LIMBS}
    (h : targetOf base addr size = some (.limb i j)) : size = 4 ∧ addr = limbAddr base i j := by
  have hbase : base.val % 4 = 0 := base.property.1
  unfold targetOf limbTarget at h
  split_ifs at h <;> cases h
  simp only [limbAddr, Config.LIMBS]
  omega

/-- Only an aligned word access to address 0 reaches `CMD` (R61, R63). -/
theorem eq_cmdAddr_of_targetOf {base addr size : Nat} (h : targetOf base addr size = some .cmd) :
    size = 4 ∧ addr = 0x0000 := by
  unfold targetOf limbTarget at h
  split_ifs at h <;> cases h
  omega

/-! ### The soft reset -/

/-- After a reset of the control state `CTRL` reads 0 (10_state.md R34, R44). -/
theorem State.resetControl_ctrlWord (s : State) : s.resetControl.ctrlWord = 0 := by
  change 0#30 ++ BitVec.ofBool false ++ BitVec.ofBool false = 0
  decide

/-- After a reset of the control state `STATUS` reads 0 (R33, R44). -/
theorem State.resetControl_statusWord (s : State) : s.resetControl.statusWord = 0 := by
  change 0#16 ++ 0#8 ++ 0#1 ++ 0#2 ++ BitVec.ofBool false ++ BitVec.ofBool false ++ BitVec.ofBool false
    ++ BitVec.ofBool false ++ BitVec.ofBool false = 0
  decide

/-- After the soft reset the engine is idle (R45). -/
@[simp] theorem State.softReset_busy (s : State) : s.softReset.busy = false := by
  rw [State.softReset_frame]; rfl

/-- After the soft reset `OVR` is 0 (R45). -/
@[simp] theorem State.softReset_ovr (s : State) : s.softReset.ovr = false := by
  rw [State.softReset_frame]; rfl

/-- The soft reset's control state (10_state.md R44, R45). -/
theorem State.softReset_control (s : State) :
    s.softReset.statusWord = 0 ∧ s.softReset.ecmd = 0 ∧ s.softReset.ctrlWord = 0 ∧ s.softReset.busy = false ∧
      s.softReset.mrPassed = 0 := by
  rw [State.softReset_frame]
  exact ⟨s.resetControl_statusWord, rfl, s.resetControl_ctrlWord, rfl, rfl⟩

/-- The destinations of a legal word are its command's (R45). -/
theorem State.curDests_ok {s : State} {i : Instr} (h : decode s.cur = .ok i) : s.curDests = i.dests := by
  rw [State.curDests, h]

/-- An illegal word has no destinations (log 23). -/
theorem State.curDests_error {s : State} {e : DecodeError} (h : decode s.cur = .error e) : s.curDests = [] := by
  rw [State.curDests, h]

/-- The soft reset keeps every register that is no destination of a command in execution (R45). -/
theorem State.softReset_x {s : State} {k : Reg} (h : s.busy = true → k ∉ s.curDests) : s.softReset.x k = s.x k := by
  have hk : k ∉ if s.busy then s.curDests else [] := by
    split
    · exact h ‹_›
    · exact List.not_mem_nil
  exact congrArg BitVec.toNat (State.bigReg_forgetAll s hk)

/-! ### Host writes -/

/-- `DONE` after the write-1-to-clear of bit 1 (10_state.md R33). -/
theorem State.clearDoneIf_eq (s : State) (b : Bool) : s.clearDoneIf b = { s with done := s.done && !b } := by
  cases b <;> simp [State.clearDoneIf]

/-- `OVR` after the write-1-to-clear of bit 3 (R33). -/
theorem State.clearOvrIf_eq (s : State) (b : Bool) : s.clearOvrIf b = { s with ovr := s.ovr && !b } := by
  cases b <;> simp [State.clearOvrIf]

/-- The fault latch after the write-1-to-clear of bit 2 (R33, 60_exceptions.md R216). -/
theorem State.clearFaultIf_eq (s : State) (b : Bool) :
    s.clearFaultIf b =
      { s with err := s.err && !b, ecode := if b then 0 else s.ecode, ecmd := if b then 0 else s.ecmd } := by
  cases b <;> simp [State.clearFaultIf, State.clearFault]

/-- A write to `STATUS` in one equation (R33). -/
theorem State.writeStatus_eq (s : State) (w : Word) :
    s.writeStatus w =
      { s with done := s.done && !w.getLsbD 1, err := s.err && !w.getLsbD 2,
               ecode := if w.getLsbD 2 then 0 else s.ecode, ecmd := if w.getLsbD 2 then 0 else s.ecmd,
               ovr := s.ovr && !w.getLsbD 3 } := by
  rw [State.writeStatus, State.clearDoneIf_eq, State.clearFaultIf_eq, State.clearOvrIf_eq]

/-- Idle and unfaulted, a write to `CMD` is the accept step (R32, R37). -/
theorem State.writeCmd_accepted {s : State} (hb : s.busy = false) (he : s.err = false) (c : Word) :
    s.writeCmd c = s.accept c := by
  simp [State.writeCmd, hb, he]

/-- Busy or faulted, a write to `CMD` is dropped and sets `OVR` (R32). -/
theorem State.writeCmd_dropped {s : State} (h : s.busy = true ∨ s.err = true) (c : Word) :
    s.writeCmd c = { s with ovr := true } := by
  simp [State.writeCmd, h]

/-- A write to `CTRL` with bit 31 set is the soft reset (R34, R45). -/
theorem State.writeCtrl_reset {w : Word} (h : w.getLsbD 31 = true) (s : State) : s.writeCtrl w = s.softReset :=
  if_pos h

/-- A write to `CTRL` with bit 31 clear sets the two enables (R34). -/
theorem State.writeCtrl_enables {w : Word} (h : w.getLsbD 31 = false) (s : State) :
    s.writeCtrl w = { s with ieDone := w.getLsbD 0, ieErr := w.getLsbD 1 } :=
  if_neg (Bool.eq_false_iff.mp h)

/-- A write to address 0 is the write to `CMD` (20_memory.md R61). -/
theorem State.hostWrite_cmd (s : State) (c : Word) : s.hostWrite 0x0000 4 c = s.writeCmd c := rfl

/-- A write to address 4 is the write to `STATUS` (R61). -/
theorem State.hostWrite_status (s : State) (w : Word) : s.hostWrite 0x0004 4 w = s.writeStatus w := rfl

/-- A write to address 12 is the write to `CTRL` (R61). -/
theorem State.hostWrite_ctrl (s : State) (w : Word) : s.hostWrite 0x000C 4 w = s.writeCtrl w := rfl

/-- What a host write can do: it is the write of the register its address reaches, or nothing (R61, R67). -/
theorem State.hostWrite_cases (s : State) (addr size : Nat) (w : Word) :
    (targetOf s.rfBase addr size = some .cmd ∧ s.hostWrite addr size w = s.writeCmd w) ∨
    s.hostWrite addr size w = s.writeStatus w ∨
    s.hostWrite addr size w = s.writeCtrl w ∨
    (∃ i j, targetOf s.rfBase addr size = some (.limb i j) ∧ s.hostWrite addr size w = s.writeLimb i j w) ∨
    s.hostWrite addr size w = s := by
  rw [State.hostWrite]
  rcases targetOf s.rfBase addr size with _ | t
  · simp
  · cases t <;> simp

/-- A host write sets `OVR` only as a dropped write to `CMD` (10_state.md R32, R39). -/
theorem State.hostWrite_sets_ovr {s : State} {addr size : Nat} {w : Word} (h : s.ovr = false)
    (h' : (s.hostWrite addr size w).ovr = true) :
    targetOf s.rfBase addr size = some .cmd ∧ (s.busy = true ∨ s.err = true) := by
  rcases s.hostWrite_cases addr size w with ⟨ht, e⟩ | e | e | ⟨i, j, -, e⟩ | e <;> rw [e] at h'
  · refine ⟨ht, ?_⟩
    by_contra hn
    obtain ⟨hbusy, herr⟩ : s.busy = false ∧ s.err = false := by simpa using hn
    rw [State.writeCmd_accepted hbusy herr] at h'
    cases h.symm.trans h'
  · simp [State.writeStatus_eq, h] at h'
  · cases hw : w.getLsbD 31
    · simp [State.writeCtrl_enables hw, h] at h'
    · simp [State.writeCtrl_reset hw] at h'
  · rw [State.writeLimb] at h'
    split at h' <;> simp [h] at h'
  · simp [h] at h'

/-- While idle a host write changes a big register only if it reaches one of its limbs (10_state.md R22; 20_memory.md R64). -/
theorem State.hostWrite_changes_x {s : State} {addr size : Nat} {w : Word} {i : Reg} (hb : s.busy = false)
    (h : (s.hostWrite addr size w).x i ≠ s.x i) : ∃ j, targetOf s.rfBase addr size = some (.limb i j) := by
  rcases s.hostWrite_cases addr size w with ⟨-, e⟩ | e | e | ⟨k, j, ht, e⟩ | e <;> rw [e] at h
  · rw [State.writeCmd] at h
    split at h <;> exact absurd rfl h
  · exact absurd (by rw [State.writeStatus_eq]; rfl) h
  · cases hw : w.getLsbD 31
    · exact absurd (by rw [State.writeCtrl_enables hw]; rfl) h
    · exact absurd (by rw [State.writeCtrl_reset hw, State.softReset_idle s hb]; rfl) h
  · by_cases hk : i = k
    · exact ⟨j, hk ▸ ht⟩
    · refine absurd ?_ h
      rw [State.writeLimb, hb, if_neg (by decide), State.x, State.bigReg_setBig_ne s _ hk, State.x]
  · exact absurd rfl h

/-! ### What a command does -/

/-- How a command's completion step ends (10_state.md R36; 60_exceptions.md R231): a fault is latched; or writes of the command's
kind are performed, MRTEST's draws having consumed a first part of the answers; or an MRTEST stays in execution, the answers used
up. -/
theorem exec_outcome {i : Instr} {s t : State} (h : exec i s = .next t) :
    (∃ f, t = s.raiseFault f) ∨
    (∃ e k, effectFits i e ∧ t = ({ s with source := s.source.drop k }.apply e).complete) ∨
    t = { s with mrPassed := s.mrPassed + s.source.length, source := [] } := by
  rcases exec_cases i s with ⟨f, -, hf⟩ | ⟨e, he, hc⟩ | ⟨rs1, imm, rfl, hm⟩
  · exact .inl ⟨f, (Host.Outcome.next.inj (hf ▸ h)).symm⟩
  · exact .inr (.inl ⟨e, 0, he, (Host.Outcome.next.inj (hc ▸ h)).symm⟩)
  · obtain rfl := Host.Outcome.next.inj (hm ▸ h)
    rcases mrtestStep_cases (s.x rs1) (roundsOf imm) s with ⟨v, k, hk⟩ | hk
    · exact .inr (.inl ⟨.setV v, k, ⟨v, rfl⟩, hk⟩)
    · exact .inr (.inr hk)

/-- A command changes no big register but its destinations (R22). -/
theorem exec_x {i : Instr} {s t : State} {k : Reg} (h : exec i s = .next t) (hk : k ∉ i.dests) : t.x k = s.x k := by
  rcases exec_outcome h with ⟨f, rfl⟩ | ⟨e, n, he, rfl⟩ | rfl
  · rfl
  · exact State.x_apply _ e fun hmem => hk (he.regs hmem)
  · rfl

/-- The commands that give a verdict in `V` (R39). -/
def setsV : Instr → Bool
  | .mrround _ _ => true
  | .mrtest _ _ => true
  | .lucas _ => true
  | .issqr _ => true
  | _ => false

/-- The command that gives a symbol in `JAC` (R39). -/
def setsJac : Instr → Bool
  | .jacobi _ _ _ => true
  | _ => false

/-- The writes of a command without a verdict leave `V` (R39). -/
theorem effectFits.apply_v {i : Instr} {e : Effect} (h : effectFits i e) (hi : setsV i = false) (s : State) :
    (s.apply e).v = s.v := by
  cases i <;> simp only [effectFits, setsV, Bool.true_eq_false] at h hi
  case jacobi => obtain ⟨j, -, rfl⟩ := h; rfl
  case crtstep => obtain ⟨m, r, rfl⟩ := h; rfl
  all_goals obtain ⟨n, rfl⟩ := h; rfl

/-- The writes of a command other than JACOBI leave `JAC` (R39). -/
theorem effectFits.apply_jac {i : Instr} {e : Effect} (h : effectFits i e) (hi : setsJac i = false) (s : State) :
    (s.apply e).jac = s.jac := by
  cases i <;> simp only [effectFits, setsJac, Bool.true_eq_false] at h hi
  case crtstep => obtain ⟨m, r, rfl⟩ := h; rfl
  all_goals obtain ⟨n, rfl⟩ := h; rfl

/-- A command's writes never make `JAC` the value `0b10` (R33). -/
theorem effectFits.apply_jac_ne {i : Instr} {e : Effect} (h : effectFits i e) {s : State} (hs : s.jac ≠ 0b10) :
    (s.apply e).jac ≠ 0b10 := by
  cases hi : setsJac i
  · rwa [h.apply_jac hi]
  · cases i <;> simp only [setsJac, Bool.false_eq_true] at hi
    obtain ⟨j, hj, rfl⟩ := h
    exact hj

/-- A command without a verdict leaves `V` (R39). -/
theorem exec_v {i : Instr} {s t : State} (h : exec i s = .next t) (hi : setsV i = false) : t.v = s.v := by
  rcases exec_outcome h with ⟨f, rfl⟩ | ⟨e, k, he, rfl⟩ | rfl
  · rfl
  · exact he.apply_v hi _
  · rfl

/-- A command other than JACOBI leaves `JAC` (R39). -/
theorem exec_jac {i : Instr} {s t : State} (h : exec i s = .next t) (hi : setsJac i = false) : t.jac = s.jac := by
  rcases exec_outcome h with ⟨f, rfl⟩ | ⟨e, k, he, rfl⟩ | rfl
  · rfl
  · exact he.apply_jac hi _
  · rfl

/-- No command changes `OVR`, the enables or `CUR` (R39). -/
theorem exec_control {i : Instr} {s t : State} (h : exec i s = .next t) :
    t.ovr = s.ovr ∧ t.ieDone = s.ieDone ∧ t.ieErr = s.ieErr ∧ t.cur = s.cur := by
  rcases exec_outcome h with ⟨f, rfl⟩ | ⟨e, k, -, rfl⟩ | rfl
  · exact ⟨rfl, rfl, rfl, rfl⟩
  · rw [State.apply_frame]; exact ⟨rfl, rfl, rfl, rfl⟩
  · exact ⟨rfl, rfl, rfl, rfl⟩

/-- A command that ends completes, the fault latch staying as it was, or latches a fault, `DONE`, `V` and `JAC` staying as they
were (R36). -/
theorem exec_ends {i : Instr} {s t : State} (h : exec i s = .next t) (hs : s.busy = true) (ht : t.busy = false) :
    (t.done = true ∧ t.err = s.err ∧ t.ecode = s.ecode ∧ t.ecmd = s.ecmd) ∨
      (t.err = true ∧ t.ecmd = s.cur ∧ t.done = s.done ∧ t.v = s.v ∧ t.jac = s.jac) := by
  rcases exec_outcome h with ⟨f, rfl⟩ | ⟨e, k, -, rfl⟩ | rfl
  · exact .inr ⟨rfl, rfl, rfl, rfl, rfl⟩
  · rw [State.apply_frame]; exact .inl ⟨rfl, rfl, rfl, rfl⟩
  · exact absurd (hs.symm.trans ht) (by decide)

/-- A command still in execution after its turn has changed no register, not `CUR` and neither verdict (R38). -/
theorem exec_stays {i : Instr} {s t : State} (h : exec i s = .next t) (ht : t.busy = true) :
    t.big = s.big ∧ t.cur = s.cur ∧ t.v = s.v ∧ t.jac = s.jac := by
  rcases exec_outcome h with ⟨f, rfl⟩ | ⟨e, k, -, rfl⟩ | rfl
  · cases ht
  · cases ht
  · exact ⟨rfl, rfl, rfl, rfl⟩

/-! ### What a step does -/

/-- The engine's turn: nothing while idle; with a command in execution that command's completion step, or, on an illegal word, a
fault (R36; 30_encoding.md R94). -/
theorem engineTurn_cases {s t : State} (h : engineTurn s = .next t) :
    (s.busy = false ∧ t = s) ∨
      (s.busy = true ∧ ((∃ i, exec i s = .next t) ∨ t = s.raiseFault .illegalCommand)) := by
  cases hb : s.busy with
  | false => exact .inl ⟨rfl, (Host.Outcome.next.inj (engineTurn_idle hb ▸ h)).symm⟩
  | true =>
    refine .inr ⟨rfl, ?_⟩
    cases hd : decode s.cur with
    | ok i => exact .inl ⟨i, engineTurn_exec hb hd ▸ h⟩
    | error e => exact .inr (Host.Outcome.next.inj (engineTurn_illegal hb hd ▸ h)).symm

/-- `t` has the engine of `s`: only what the model holds for the source and the host differs (10_state.md R20, R31). -/
def SameEngine (s t : State) : Prop :=
  t = { s with source := t.source, epc := t.epc, answer := t.answer, polled := t.polled, limb := t.limb,
               gathered := t.gathered }

/-- The next step is the host write `MemWrite(addr, size, w)`: a write of its own or one of the limb writes of an LDR
(30_encoding.md R97; 20_memory.md R68). -/
def HostWrites (s : State) (addr size : Nat) (w : Word) : Prop :=
  s.env[s.epc]? = some (.write addr size w) ∨
    ∃ i v, s.env[s.epc]? = some (.ldr i v) ∧ addr = limbAddr s.rfBase i s.limb ∧ size = 4 ∧ w = limbOf v s.limb

/-- What a step does to the engine: the engine's turn, a host write, a hardware reset, or nothing (20_memory.md R72). -/
theorem step_cases {s t : State} (h : step s = .next t) :
    (∃ e, engineTurn { s with epc := e } = .next t) ∨
    (∃ addr size w, HostWrites s addr size w ∧ SameEngine (s.hostWrite addr size w) t) ∨
    (s.env[s.epc]? = some .hardReset ∧ SameEngine s.hardReset t) ∨
    SameEngine s t := by
  cases ho : s.env[s.epc]? with
  | none => exact .inl ⟨s.epc, step_over ho ▸ h⟩
  | some op =>
    rw [step_env ho] at h
    cases op <;> simp only [envStep] at h
    case write addr size w => cases h; exact .inr (.inl ⟨addr, size, w, .inl ho, rfl⟩)
    case ldr i v => cases h; exact .inr (.inl ⟨_, _, _, .inr ⟨i, v, ho, rfl, rfl, rfl⟩, rfl⟩)
    case hardReset => cases h; exact .inr (.inr (.inl ⟨rfl, rfl⟩))
    case engine => exact .inl ⟨s.epc + 1, h⟩
    case wait =>
      split at h
      · exact .inl ⟨s.epc, h⟩
      · cases h; exact .inr (.inr (.inr rfl))
    all_goals cases h; exact .inr (.inr (.inr rfl))

/-- A host write that reaches `CMD` is an entry of its own, to address 0 (20_memory.md R61). -/
theorem HostWrites.entry_of_cmd {s : State} {addr size : Nat} {w : Word} (h : HostWrites s addr size w)
    (ht : targetOf s.rfBase addr size = some .cmd) : s.env[s.epc]? = some (.write 0x0000 4 w) := by
  rcases h with h | ⟨i, v, -, rfl, rfl, -⟩
  · obtain ⟨rfl, rfl⟩ := eq_cmdAddr_of_targetOf ht
    exact h
  · rw [targetOf_limbAddr] at ht
    cases ht

/-- A host write that reaches a limb of `x[i]` is an entry of its own to that limb's address, or belongs to an LDR of `x[i]` (R61,
R68). -/
theorem HostWrites.entry_of_limb {s : State} {addr size : Nat} {w : Word} {i : Reg} {j : Fin Config.LIMBS}
    (h : HostWrites s addr size w) (ht : targetOf s.rfBase addr size = some (.limb i j)) :
    s.env[s.epc]? = some (.write (limbAddr s.rfBase i j) 4 w) ∨ ∃ v, s.env[s.epc]? = some (.ldr i v) := by
  rcases h with h | ⟨k, v, h, rfl, rfl, -⟩
  · obtain ⟨rfl, rfl⟩ := eq_limbAddr_of_targetOf ht
    exact .inl h
  · rw [targetOf_limbAddr] at ht
    cases ht
    exact .inr ⟨v, h⟩

/-! ### The control invariant -/

/-- What `ControlInv` says of the flags (10_state.md R33, R34, R37; 60_exceptions.md R211, R213), each clause by name. -/
structure FlagsCoherent (busy done err : Bool) (jac : BitVec 2) (ecode : BitVec 8) (ecmd : Word) : Prop where
  busyClear : busy = true → done = false ∧ err = false
  faultCoded : err = true → done = false ∧ 1 ≤ ecode.toNat ∧ ecode.toNat ≤ 4
  latchClear : err = false → ecode = 0 ∧ ecmd = 0
  jacField : jac ≠ 0b10

/-- The engine's part of `ControlInv`. -/
abbrev State.Coherent (s : State) : Prop :=
  FlagsCoherent s.busy s.done s.err s.jac s.ecode s.ecmd

/-- The control invariant is the engine's part and the host's (log 9). -/
theorem controlInv_iff (s : State) : ControlInv s ↔ s.Coherent ∧ (s.limb.val ≠ 0 → s.atLimbs = true) :=
  ⟨fun ⟨hbusy, herr, hclear, hjac, hlimb⟩ => ⟨⟨hbusy, herr, hclear, hjac⟩, hlimb⟩,
    fun ⟨⟨hbusy, herr, hclear, hjac⟩, hlimb⟩ => ⟨hbusy, herr, hclear, hjac, hlimb⟩⟩

/-- Coherence is of the engine's fields alone. -/
theorem SameEngine.coherent {s t : State} (h : SameEngine s t) (hs : s.Coherent) : t.Coherent := by
  rw [h]; exact hs

/-- A reset control state is coherent (R44). -/
theorem State.resetControl_coherent (s : State) : s.resetControl.Coherent where
  busyClear := nofun
  faultCoded := nofun
  latchClear _ := ⟨rfl, rfl⟩
  jacField := show (0 : BitVec 2) ≠ 0b10 by decide

/-- The codes of the faults (60_exceptions.md R211). -/
theorem faultCode_range (f : EngineFault) : 1 ≤ (faultCode f).toNat ∧ (faultCode f).toNat ≤ 4 := by
  cases f <;> decide

/-- Taking a fault while a command is in execution (R213). -/
theorem State.Coherent.raiseFault {s : State} (hs : s.Coherent) (hb : s.busy = true) (f : EngineFault) :
    (s.raiseFault f).Coherent where
  busyClear := nofun
  faultCoded _ := ⟨(hs.busyClear hb).1, faultCode_range f⟩
  latchClear := nofun
  jacField := hs.jacField

/-- Completing a command in execution (10_state.md R36). -/
theorem State.Coherent.complete {s : State} (hs : s.Coherent) (hb : s.busy = true) : s.complete.Coherent where
  busyClear := nofun
  faultCoded he := absurd ((hs.busyClear hb).2.symm.trans he) (by decide)
  latchClear := hs.latchClear
  jacField := hs.jacField

/-- Performing a command's writes (R36). -/
theorem State.Coherent.apply {s : State} (hs : s.Coherent) {i : Instr} {e : Effect} (he : effectFits i e) :
    (s.apply e).Coherent := by
  have hjac := he.apply_jac_ne hs.jacField
  rw [State.apply_frame]
  exact { hs with jacField := hjac }

/-- Accepting a command (R37). -/
theorem State.Coherent.accept {s : State} (hs : s.Coherent) (he : s.err = false) (c : Word) : (s.accept c).Coherent where
  busyClear _ := ⟨rfl, he⟩
  faultCoded h := absurd (he.symm.trans h) (by decide)
  latchClear := hs.latchClear
  jacField := hs.jacField

/-- Clearing `DONE` (R33). -/
theorem State.Coherent.clearDoneIf {s : State} (hs : s.Coherent) (b : Bool) : (s.clearDoneIf b).Coherent := by
  cases b with
  | false => exact hs
  | true => exact ⟨fun h => ⟨rfl, (hs.busyClear h).2⟩, fun h => ⟨rfl, (hs.faultCoded h).2⟩, hs.latchClear, hs.jacField⟩

/-- Leaving a fault (60_exceptions.md R216). -/
theorem State.Coherent.clearFaultIf {s : State} (hs : s.Coherent) (b : Bool) : (s.clearFaultIf b).Coherent := by
  cases b with
  | false => exact hs
  | true => exact ⟨fun h => ⟨(hs.busyClear h).1, rfl⟩, nofun, fun _ => ⟨rfl, rfl⟩, hs.jacField⟩

/-- Clearing `OVR` (10_state.md R33). -/
theorem State.Coherent.clearOvrIf {s : State} (hs : s.Coherent) (b : Bool) : (s.clearOvrIf b).Coherent := by
  rw [State.clearOvrIf_eq]; exact hs

/-- A host write keeps the flags coherent (20_memory.md R67). -/
theorem State.Coherent.hostWrite {s : State} (hs : s.Coherent) (addr size : Nat) (w : Word) :
    (s.hostWrite addr size w).Coherent := by
  rcases s.hostWrite_cases addr size w with ⟨-, e⟩ | e | e | ⟨i, j, -, e⟩ | e <;> rw [e]
  · by_cases h : s.busy = true ∨ s.err = true
    · rw [State.writeCmd_dropped h]; exact hs
    · obtain ⟨hbusy, herr⟩ : s.busy = false ∧ s.err = false := by simpa using h
      rw [State.writeCmd_accepted hbusy herr]; exact hs.accept herr w
  · exact ((hs.clearDoneIf _).clearFaultIf _).clearOvrIf _
  · cases hw : w.getLsbD 31
    · rw [State.writeCtrl_enables hw]; exact hs
    · rw [State.writeCtrl_reset hw, State.softReset_frame]; exact s.resetControl_coherent
  · rw [State.writeLimb]; split <;> exact hs
  · exact hs

/-- The engine's turn keeps the flags coherent (10_state.md R36). -/
theorem State.Coherent.engineTurn {s t : State} (hs : s.Coherent) (h : engineTurn s = .next t) : t.Coherent := by
  rcases engineTurn_cases h with ⟨-, rfl⟩ | ⟨hb, ⟨i, hi⟩ | rfl⟩
  · exact hs
  · rcases exec_outcome hi with ⟨f, rfl⟩ | ⟨e, k, he, rfl⟩ | rfl
    · exact hs.raiseFault hb f
    · have happly : ({ s with source := s.source.drop k }.apply e).Coherent :=
        State.Coherent.apply (s := { s with source := s.source.drop k }) hs he
      exact happly.complete (by rw [State.apply_frame]; exact hb)
    · exact hs
  · exact hs.raiseFault hb .illegalCommand

/-- A step keeps the flags coherent. -/
theorem State.Coherent.step {s t : State} (hs : s.Coherent) (h : step s = .next t) : t.Coherent := by
  rcases step_cases h with ⟨e, he⟩ | ⟨addr, size, w, -, he⟩ | ⟨-, he⟩ | he
  · exact State.Coherent.engineTurn (s := { s with epc := e }) hs he
  · exact he.coherent (hs.hostWrite addr size w)
  · exact he.coherent s.resetControl_coherent
  · exact he.coherent hs

/-! ### The host's place in an LDR or RDR -/

/-- The host's next entry decides whether it is in an LDR or RDR (log 9). -/
theorem State.atLimbs_iff (s : State) :
    s.atLimbs = true ↔ (∃ i v, s.env[s.epc]? = some (.ldr i v)) ∨ ∃ i, s.env[s.epc]? = some (.rdr i) := by
  rw [State.atLimbs]
  split <;> simp_all

/-- Going on to the next limb the host stays at its entry, or is back at limb 0 (30_encoding.md R97). -/
theorem State.nextLimb_place (s : State) : s.nextLimb.limb.val = 0 ∨ s.nextLimb.epc = s.epc := by
  by_cases h : s.limb.val + 1 = Config.LIMBS
  · rw [State.nextLimb_last h]; exact .inl rfl
  · rw [State.nextLimb_inside (Nat.lt_of_le_of_ne s.limb.isLt h)]; exact .inr rfl

/-- A step of an LDR or RDR leads to limb 0, or leaves the host in it (R97). -/
theorem step_atLimbs {s t : State} (h : step s = .next t) (hs : s.atLimbs = true) :
    t.limb.val = 0 ∨ t.atLimbs = true := by
  have stays : ∀ u : State, u.env = s.env → u.epc = s.epc →
      u.nextLimb.limb.val = 0 ∨ u.nextLimb.atLimbs = true := by
    intro u henv hepc
    refine u.nextLimb_place.imp_right fun hp => ?_
    rwa [State.atLimbs, hp, State.nextLimb_env, henv, hepc]
  rcases s.atLimbs_iff.mp hs with ⟨i, v, ho⟩ | ⟨i, ho⟩ <;> rw [step_env ho] at h <;> cases h
  · exact stays _ (s.hostWrite_env _ _ _) (s.hostWrite_epc _ _ _)
  · exact stays _ rfl rfl

/-- The engine's turn leaves the host's limb (10_state.md R31). -/
theorem engineTurn_limb {s t : State} (h : engineTurn s = .next t) : t.limb = s.limb := by
  rw [engineTurn_frame h]

/-- A step outside an LDR or RDR leaves the host's limb (R97). -/
theorem step_limb {s t : State} (h : step s = .next t) (hs : s.atLimbs = false) : t.limb = s.limb := by
  cases ho : s.env[s.epc]? with
  | none => exact engineTurn_limb (step_over ho ▸ h)
  | some op =>
    rw [step_env ho] at h
    cases op <;> simp only [envStep] at h
    case write => cases h; exact s.hostWrite_limbField _ _ _
    case ldr => simp [State.atLimbs, ho] at hs
    case rdr => simp [State.atLimbs, ho] at hs
    case engine => exact engineTurn_limb (s := s.advance) h
    case wait =>
      split at h
      · exact engineTurn_limb h
      · cases h; rfl
    all_goals cases h; rfl

/-- The control invariant is kept by every step: its engine's part, and the host's place. -/
theorem controlInv_step {s t : State} (hs : ControlInv s) (h : step s = .next t) : ControlInv t := by
  obtain ⟨hcoherent, hplace⟩ := (controlInv_iff s).mp hs
  refine (controlInv_iff t).mpr ⟨hcoherent.step h, fun hlimb => ?_⟩
  cases hat : s.atLimbs with
  | true => exact (step_atLimbs h hat).resolve_left hlimb
  | false =>
    rw [step_limb h hat] at hlimb
    exact absurd (hplace hlimb) (by simp [hat])

/-! ### Registers and flags over a step -/

/-- A step that stays busy changes no register, not `CUR` and neither verdict (10_state.md R38; 20_memory.md R65). -/
theorem step_stays_busy {s t : State} (hs : s.busy = true) (h : step s = .next t) (ht : t.busy = true) :
    t.big = s.big ∧ t.cur = s.cur ∧ t.v = s.v ∧ t.jac = s.jac := by
  rcases step_cases h with ⟨e, he⟩ | ⟨addr, size, w, -, he⟩ | ⟨-, he⟩ | he
  · rcases engineTurn_cases he with ⟨hb, -⟩ | ⟨-, ⟨i, hi⟩ | rfl⟩
    · cases hs.symm.trans hb
    · exact exec_stays (s := { s with epc := e }) hi ht
    · cases ht
  · rw [he] at ht ⊢
    rcases s.hostWrite_busy addr size w hs with hreset | ⟨hbig, hcur, hv, hjac, -⟩
    · exact absurd (hreset ▸ ht) (by simp)
    · exact ⟨hbig, hcur, hv, hjac⟩
  · rw [he] at ht
    cases ht
  · rw [he]
    exact ⟨rfl, rfl, rfl, rfl⟩

/-- The engine's turn leaves `OVR` (R39). -/
theorem engineTurn_ovr {s t : State} (h : engineTurn s = .next t) : t.ovr = s.ovr := by
  rcases engineTurn_cases h with ⟨-, rfl⟩ | ⟨-, ⟨i, hi⟩ | rfl⟩
  · rfl
  · exact (exec_control hi).1
  · rfl

/-- A step sets `OVR` only as a host write to `CMD` that is dropped (R32, R39). -/
theorem step_sets_ovr {s t : State} (h : step s = .next t) (hs : s.ovr = false) (ht : t.ovr = true) :
    (s.busy = true ∨ s.err = true) ∧ ∃ c : Word, s.env[s.epc]? = some (.write 0x0000 4 c) := by
  rcases step_cases h with ⟨e, he⟩ | ⟨addr, size, w, hw, he⟩ | ⟨-, he⟩ | he
  · cases ((engineTurn_ovr he).trans hs).symm.trans ht
  · rw [he] at ht
    obtain ⟨hcmd, hdropped⟩ := State.hostWrite_sets_ovr hs ht
    exact ⟨hdropped, w, hw.entry_of_cmd hcmd⟩
  · rw [he] at ht
    cases ht
  · rw [he] at ht
    cases hs.symm.trans ht

/-- An idle step changes a big register only as a host write to one of its limbs, as part of an LDR of it, or as a hardware reset
(R22; 20_memory.md R64). -/
theorem step_changes_x_idle {s t : State} {i : Reg} (hb : s.busy = false) (h : step s = .next t) (hx : t.x i ≠ s.x i) :
    (∃ j w, s.env[s.epc]? = some (.write (limbAddr s.rfBase i j) 4 w)) ∨
      (∃ v, s.env[s.epc]? = some (.ldr i v)) ∨ s.env[s.epc]? = some .hardReset := by
  rcases step_cases h with ⟨e, he⟩ | ⟨addr, size, w, hw, he⟩ | ⟨ho, -⟩ | he
  · obtain ⟨-, rfl⟩ | ⟨hbusy, -⟩ := engineTurn_cases he
    · exact absurd rfl hx
    · cases hb.symm.trans hbusy
  · rw [he] at hx
    obtain ⟨j, hj⟩ := State.hostWrite_changes_x hb hx
    rcases hw.entry_of_limb hj with ho | ho
    · exact .inl ⟨j, w, ho⟩
    · exact .inr (.inl ho)
  · exact .inr (.inr ho)
  · rw [he] at hx
    exact absurd rfl hx

/-- The engine's turn at an entry `engine`, the index moved on (log 8). -/
theorem step_engineEntry {s : State} (h : s.env[s.epc]? = some .engine) :
    step s = engineTurn { s with epc := s.epc + 1 } :=
  step_env h

/-- The engine's turn while the host waits (log 10). -/
theorem step_waitBusy {s : State} (h : s.env[s.epc]? = some .wait) (hb : s.busy = true) : step s = engineTurn s := by
  rw [step_env h, envStep, if_pos hb]

/-! ### The status word -/

/-- The fields of `STATUS` are the bits of its word (10_state.md R33). -/
theorem State.statusWord_bits (s : State) :
    s.statusWord.getLsbD 0 = s.busy ∧ s.statusWord.getLsbD 1 = s.done ∧ s.statusWord.getLsbD 2 = s.err ∧
    s.statusWord.getLsbD 3 = s.ovr ∧ s.statusWord.getLsbD 4 = s.v ∧ s.statusWord.extractLsb' 5 2 = s.jac ∧
    s.statusWord.getLsbD 7 = false ∧ s.statusWord.extractLsb' 8 8 = s.ecode ∧ s.statusWord.extractLsb' 16 16 = 0 := by
  simp only [State.statusWord, BitVec.getLsbD_append, BitVec.getLsbD_ofBool]
  refine ⟨by simp, by simp, by simp, by simp, by simp, ?_, by simp, ?_, ?_⟩
  · iterate 5 rw [BitVec.extractLsb'_append_eq_of_le (by decide)]
    exact BitVec.extractLsb'_append_eq_right
  · iterate 7 rw [BitVec.extractLsb'_append_eq_of_le (by decide)]
    exact BitVec.extractLsb'_append_eq_right
  · iterate 7 rw [BitVec.extractLsb'_append_eq_of_le (by decide)]
    exact BitVec.extractLsb'_append_eq_left

/-- The fields of `CTRL` are the bits of its word (R34). -/
theorem State.ctrlWord_bits (s : State) :
    s.ctrlWord.getLsbD 0 = s.ieDone ∧ s.ctrlWord.getLsbD 1 = s.ieErr ∧ s.ctrlWord.extractLsb' 2 30 = 0 := by
  simp only [State.ctrlWord, BitVec.getLsbD_append, BitVec.getLsbD_ofBool]
  refine ⟨by simp, by simp, ?_⟩
  rw [BitVec.extractLsb'_append_eq_of_le (by decide)]
  exact BitVec.extractLsb'_append_eq_left

end Sys2Proof.Machine

namespace Sys2Proof

open Sys2Proof.Machine

/-- Settles O39: every step keeps the control invariant. -/
theorem everyStepKeepsControlInvariant : Obligations.EveryStepKeepsControlInvariant :=
  fun _ _ hs h => controlInv_step hs h

/-- Settles O36: each constructor's destinations are those of `Instr.dests`. -/
theorem commandsWriteOnlyTheirDestinations : Obligations.CommandsWriteOnlyTheirDestinations := by
  intro i s t k h
  have keeps : k ∉ i.dests → t.x k = s.x k := exec_x h
  cases i with
  | modexp rd rs1 rs2 rs3 => exact fun hk => keeps (List.mem_singleton.not.mpr hk)
  | rsaep rd rs1 rs2 rs3 => exact fun hk => keeps (List.mem_singleton.not.mpr hk)
  | montred rd rs1 rs3 => exact fun hk => keeps (List.mem_singleton.not.mpr hk)
  | crtstep rd rs1 rs2 rs3 rs4 => exact fun hd hr => keeps (by simp [Instr.dests, hd, hr])
  | mrround rs1 rs2 => exact keeps List.not_mem_nil
  | mrtest rs1 imm12 => exact keeps List.not_mem_nil
  | lucas rs1 => exact keeps List.not_mem_nil
  | jacobi rs1 rs3 sa => exact keeps List.not_mem_nil
  | issqr rs1 => exact keeps List.not_mem_nil

/-- Settles O37: `setsV` and `setsJac` sort the constructors, the rest holds of every command. -/
theorem commandsWriteOnlyTheirFlags : Obligations.CommandsWriteOnlyTheirFlags := by
  intro i s t h
  obtain ⟨hovr, hieDone, hieErr, hcur⟩ := exec_control h
  refine ⟨?_, hovr, hieDone, hieErr, hcur, exec_ends h⟩
  cases i with
  | modexp rd rs1 rs2 rs3 => exact ⟨exec_v h rfl, exec_jac h rfl⟩
  | rsaep rd rs1 rs2 rs3 => exact ⟨exec_v h rfl, exec_jac h rfl⟩
  | montred rd rs1 rs3 => exact ⟨exec_v h rfl, exec_jac h rfl⟩
  | crtstep rd rs1 rs2 rs3 rs4 => exact ⟨exec_v h rfl, exec_jac h rfl⟩
  | mrround rs1 rs2 => exact exec_jac h rfl
  | mrtest rs1 imm12 => exact exec_jac h rfl
  | lucas rs1 => exact exec_jac h rfl
  | jacobi rs1 rs3 sa => exact exec_v h rfl
  | issqr rs1 => exact exec_jac h rfl

/-- Settles O42: the step's cases, those that end the command excluded. -/
theorem nothingVisibleChangesWhileBusy : Obligations.NothingVisibleChangesWhileBusy :=
  fun _ _ hs h ht => step_stays_busy hs h ht

/-- Settles O43: a host write that changes a register reaches one of its limbs. -/
theorem idleRegistersChangeOnlyByTheHost : Obligations.IdleRegistersChangeOnlyByTheHost :=
  fun _ _ _ hb h hx => step_changes_x_idle hb h hx

/-- Settles O45: of all steps only a host write sets `OVR`, and of these only a dropped one to `CMD`. -/
theorem overrunOnlyByDroppedCommand : Obligations.OverrunOnlyByDroppedCommand :=
  fun _ _ h hs ht => step_sets_ovr h hs ht

/-- Settles O49: the write is the soft reset, which forgets the destinations of the command in execution only. -/
theorem softResetKeepsTheRegisters : Obligations.SoftResetKeepsTheRegisters := by
  intro s w ho hw
  obtain ⟨hstatus, hecmd, hctrl, hbusy, hpassed⟩ := s.softReset_control
  rw [step_write ho, State.hostWrite_ctrl, State.writeCtrl_reset hw]
  refine ⟨_, rfl, hstatus, hecmd, hctrl, hbusy, hpassed, ?_, ?_, ?_⟩
  · intro hidle k
    exact State.softReset_x fun hb => absurd (hidle.symm.trans hb) (by decide)
  · intro i k _ hd hk
    refine State.softReset_x fun _ => ?_
    rw [State.curDests_ok hd]
    cases i with
    | crtstep rd rs1 rs2 rs3 rs4 => simp [Instr.dests, hk.1, hk.2]
    | modexp rd rs1 rs2 rs3 => exact List.mem_singleton.not.mpr hk
    | rsaep rd rs1 rs2 rs3 => exact List.mem_singleton.not.mpr hk
    | montred rd rs1 rs3 => exact List.mem_singleton.not.mpr hk
    | mrround rs1 rs2 => exact List.not_mem_nil
    | mrtest rs1 imm12 => exact List.not_mem_nil
    | lucas rs1 => exact List.not_mem_nil
    | jacobi rs1 rs3 sa => exact List.not_mem_nil
    | issqr rs1 => exact List.not_mem_nil
  · intro e k _ hd
    exact State.softReset_x fun _ => State.curDests_error hd ▸ List.not_mem_nil

/-- Settles O5: the three ways the engine has its turn, each the completion of the command in execution. -/
theorem stepRunsTheCommandInExecution : Obligations.StepRunsTheCommandInExecution := by
  intro s i hb hd
  refine ⟨fun ho => ?_, fun ho => ?_, fun ho => ?_⟩
  · rw [step_over ho, engineTurn_exec hb hd]
  · rw [step_waitBusy ho hb, engineTurn_exec hb hd]
  · rw [step_engineEntry ho]
    exact engineTurn_exec (s := { s with epc := s.epc + 1 }) hb hd

/-- Settles O8: the accept step, then the engine's turn, the environment's program being over. -/
theorem acceptedCommandIsCompleted : Obligations.AcceptedCommandIsCompleted := by
  intro s c i ho hover hb he hd
  rw [step_write ho, State.hostWrite_cmd, State.writeCmd_accepted hb he]
  refine ⟨_, rfl, rfl, fun _ => rfl, rfl, rfl, ?_⟩
  rw [step_over hover]
  exact engineTurn_exec rfl hd

/-- Settles O9: a write to `CMD` is the accept step or sets `OVR`. -/
theorem commandWriteIsAcceptedOrDropped : Obligations.CommandWriteIsAcceptedOrDropped := by
  refine ⟨fun s c ho hb he => ?_, fun s c ho h => ?_, fun _ => rfl⟩
  · rw [step_write ho, State.hostWrite_cmd, State.writeCmd_accepted hb he]
    exact ⟨_, rfl, rfl⟩
  · rw [step_write ho, State.hostWrite_cmd, State.writeCmd_dropped h]
    exact ⟨_, rfl, rfl⟩

/-- Settles O40: after a hardware reset the control state is a reset one and the host at limb 0. -/
theorem controlInvariantAtReset : Obligations.ControlInvariantAtReset :=
  (controlInv_iff _).mpr ⟨State.reset.resetControl_coherent, fun h => absurd rfl h⟩

/-- Settles O41: the hardware reset's control state is a reset one. -/
theorem resetValues : Obligations.ResetValues :=
  ⟨State.reset.resetControl_statusWord, rfl, State.reset.resetControl_ctrlWord, rfl, rfl, by decide⟩

/-- Settles O55: a read of `STATUS` answers the status word, whose bits are its fields. -/
theorem statusWordBits : Obligations.StatusWordBits :=
  fun s => ⟨rfl, s.statusWord_bits⟩

/-- Settles O56: the three write-1-to-clear updates in one equation. -/
theorem statusWriteOneToClear : Obligations.StatusWriteOneToClear :=
  fun s w => (s.hostWrite_status w).trans (s.writeStatus_eq w)

/-- Settles O57: each of the three addresses by the register it reaches. -/
theorem controlRegisterAccess : Obligations.ControlRegisterAccess :=
  fun s w => ⟨rfl, rfl, rfl, rfl, ⟨s.ctrlWord, rfl, s.ctrlWord_bits⟩,
    fun h => (s.hostWrite_ctrl w).trans (State.writeCtrl_enables h s)⟩

end Sys2Proof
end

section
/-! The register window: a big register is the sum of its limbs (20_memory.md R62), and which accesses the window refuses
(R61, R63, R65, R66). -/

namespace Sys2Proof.Machine

/-! ### A register as the sum of its limbs -/

/-- A number of at most `k` digits is the sum of its digits in base `m`, each times its power. -/
theorem sum_digits_of_lt_pow {m k n : ℕ} (h : n < m ^ k) : ∑ j : Fin k, n / m ^ j.val % m * m ^ j.val = n := by
  have hsum := finFunctionFinEquiv_apply (finFunctionFinEquiv.symm (⟨n, h⟩ : Fin (m ^ k)))
  rw [Equiv.apply_symm_apply] at hsum
  exact hsum.symm

/-- A limb is the digit of its register in base `2 ^ 32` (20_memory.md R62). -/
theorem limbOf_bigReg_toNat (s : State) (i : Reg) (j : Fin Config.LIMBS) :
    (limbOf (s.bigReg i) j).toNat = s.x i / (2 ^ 32) ^ j.val % 2 ^ 32 := by
  rw [limbOf_bigReg, BitVec.toNat_ofNat, pow_mul]

/-- A big register holds a number of `LIMBS` digits in base `2 ^ 32` (00_scope.md R11). -/
theorem State.x_lt_limbs (s : State) (i : Reg) : s.x i < (2 ^ 32) ^ Config.LIMBS := by
  rw [← pow_mul, ← W_eq]
  exact (s.bigReg i).isLt

/-- A big register is the sum of its limbs, limb 0 least significant (20_memory.md R62). -/
theorem State.x_eq_sum_limbs (s : State) (i : Reg) :
    s.x i = ∑ j : Fin Config.LIMBS, (limbOf (s.bigReg i) j).toNat * 2 ^ (32 * j.val) := by
  simp only [limbOf_bigReg_toNat, pow_mul]
  exact (sum_digits_of_lt_pow (s.x_lt_limbs i)).symm

/-! ### What an address does not reach -/

/-- An access of another size or alignment reaches nothing (R63). -/
theorem targetOf_unaligned {base addr size : Nat} (h : size ≠ 4 ∨ addr % 4 ≠ 0) : targetOf base addr size = none :=
  if_pos h

/-- From 0x14 on an access reaches a limb, or nothing where it is unaligned or before the register window (R61, R63, R66). -/
theorem targetOf_past_control {base addr : Nat} (size : Nat) (h : 0x0014 ≤ addr) :
    targetOf base addr size =
      if size ≠ 4 ∨ addr % 4 ≠ 0 then none else if addr < base then none else limbTarget ((addr - base) / 4) := by
  rw [targetOf, if_neg (show addr ≠ 0x0000 by omega), if_neg (show addr ≠ 0x0004 by omega),
    if_neg (show addr ≠ 0x0008 by omega), if_neg (show addr ≠ 0x000C by omega), if_neg (show addr ≠ 0x0010 by omega)]

/-- An address between the control registers and the register window reaches nothing (R66). -/
theorem targetOf_reserved {base addr : Nat} (size : Nat) (h : 0x0014 ≤ addr) (hb : addr < base) :
    targetOf base addr size = none := by
  rw [targetOf_past_control size h, if_pos hb, ite_self]

/-- From `RF_BASE` on an access reaches a limb or nothing (R61). -/
theorem targetOf_window (base : Config.RfBase) {addr : Nat} (size : Nat) (h : base.val ≤ addr) :
    targetOf base addr size = none ∨ ∃ i j, targetOf base addr size = some (.limb i j) := by
  rw [targetOf_past_control size (base.property.2.trans h), if_neg (show ¬ addr < base.val by omega), limbTarget]
  split_ifs
  · exact .inl rfl
  · exact .inr ⟨_, _, rfl⟩
  · exact .inl rfl

/-- Past the register window an access reaches nothing (R61, R66): the limb it would reach has an address inside. -/
theorem targetOf_outside (base : Config.RfBase) {addr : Nat} (size : Nat)
    (h : base.val + 4 * Config.LIMBS * Config.NREG ≤ addr) : targetOf base addr size = none := by
  rcases targetOf_window base size (Nat.le_of_add_right_le h) with ht | ⟨i, j, ht⟩
  · exact ht
  · have haddr : addr = limbAddr base i j := (eq_limbAddr_of_targetOf ht).2
    have hi := i.isLt
    have hj := j.isLt
    simp only [limbAddr, Config.LIMBS, Config.NREG] at haddr h hi hj
    omega

/-! ### Refused accesses -/

/-- The window refuses the access in both directions: each is answered `BusError`, and the write changes nothing. -/
def State.Refuses (s : State) (addr size : Nat) (w : Word) : Prop :=
  s.readAnswer addr size = .busError ∧ s.writeAnswer addr size = .busError ∧ s.hostWrite addr size w = s

/-- An access that reaches nothing is refused (R63, R66). -/
theorem State.refuses_unmapped {s : State} {addr size : Nat} (h : targetOf s.rfBase addr size = none) (w : Word) :
    s.Refuses addr size w := by
  simp [State.Refuses, State.readAnswer, State.writeAnswer, State.hostWrite, h]

/-- While busy an access to a limb is refused (R65). -/
theorem State.refuses_limb_busy {s : State} {addr size : Nat} {i : Reg} {j : Fin Config.LIMBS} (hb : s.busy = true)
    (h : targetOf s.rfBase addr size = some (.limb i j)) (w : Word) : s.Refuses addr size w := by
  obtain ⟨rfl, rfl⟩ := eq_limbAddr_of_targetOf h
  have hans := s.limb_answers i j
  rw [hb] at hans
  exact ⟨hans.1, hans.2, s.hostWrite_limb_busy i j w hb⟩

/-- While busy every access from `RF_BASE` on is refused (R65, R66). -/
theorem State.refuses_window_busy {s : State} {addr : Nat} (size : Nat) (hb : s.busy = true) (h : s.rfBase.val ≤ addr)
    (w : Word) : s.Refuses addr size w := by
  rcases targetOf_window s.rfBase size h with ht | ⟨i, j, ht⟩
  · exact State.refuses_unmapped ht w
  · exact State.refuses_limb_busy hb ht w

/-- An aligned word access to a control register is performed, busy or not (R61, R65). -/
theorem State.control_accessible (s : State) {a : Nat} (h : a ∈ [0x0000, 0x0004, 0x0008, 0x000C, 0x0010]) :
    s.writeAnswer a 4 = .written ∧ ∃ d : Word, s.readAnswer a 4 = .data d := by
  simp only [List.mem_cons, List.not_mem_nil, or_false] at h
  rcases h with rfl | rfl | rfl | rfl | rfl <;> exact ⟨rfl, _, rfl⟩

end Sys2Proof.Machine

namespace Sys2Proof

open Sys2Proof.Machine

/-- Settles O52: a limb read answers the limb, a digit of the register in base `2 ^ 32`. -/
theorem registerIsTheSumOfItsLimbs : Obligations.RegisterIsTheSumOfItsLimbs :=
  fun s i hb => ⟨fun j => s.readAnswer_limb_idle hb i j, s.x_eq_sum_limbs i⟩

/-- Settles O53: from `RF_BASE` on there are limbs only, which a busy engine refuses; the control registers lie below. -/
theorem registerWindowClosedWhileBusy : Obligations.RegisterWindowClosedWhileBusy :=
  fun s _ size w hb => ⟨fun h => State.refuses_window_busy size hb h w, fun _ ha => s.control_accessible ha⟩

/-- Settles O54: in each of the four cases the access reaches nothing. -/
theorem refusedAccessesChangeNothing : Obligations.RefusedAccessesChangeNothing := by
  intro s addr size w h
  refine State.refuses_unmapped ?_ w
  rcases h with h | h | ⟨h, hb⟩ | h
  · exact targetOf_unaligned (.inl h)
  · exact targetOf_unaligned (.inr h)
  · exact targetOf_reserved size h hb
  · exact targetOf_outside s.rfBase size h

end Sys2Proof
end

section
/-! The decoder and the encoder (30_encoding.md R90 to R96): register fields, what each row of the opcode table decodes to, and a
word's fixed bits as its fields' fixed bits. -/

namespace Sys2Proof.Machine

open Sys2Proof.Laws.FixedBits (andFields packFields_and and_allOnes4)

/-! ### Register fields -/

/-- The register a field names: with NREG = 16 every value of the four bits names one (R93 (2)). -/
def regAt (b : BitVec 4) : Reg := b.toFin

theorem regOf_eq (b : BitVec 4) : regOf b = .ok (regAt b) :=
  dif_pos b.isLt

/-- Reading a register field goes on with the register it names. -/
theorem regOf_bind {α : Type} (b : BitVec 4) (k : Reg → Except DecodeError α) : (regOf b >>= k) = k (regAt b) := by
  rw [regOf_eq]; rfl

@[simp] theorem regBits_regAt (b : BitVec 4) : regBits (regAt b) = b :=
  BitVec.eq_of_toNat_eq (by simp [regBits, regAt])

@[simp] theorem regAt_regBits (r : Reg) : regAt (regBits r) = r :=
  Except.ok.inj ((regOf_eq _).symm.trans (regOf_regBits r))

theorem regAt_inj {a b : BitVec 4} : regAt a = regAt b ↔ a = b :=
  (Function.LeftInverse.injective regBits_regAt).eq_iff

theorem regBits_inj {a b : Reg} : regBits a = regBits b ↔ a = b :=
  (Function.LeftInverse.injective regAt_regBits).eq_iff

/-- JACOBI's flag field is its bit 0 where the other three bits are zero (R92). -/
theorem jacobiFlag_iff (b : BitVec 4) : b.extractLsb' 1 3 = 0 ↔ (BitVec.ofBool (b.getLsbD 0)).setWidth 4 = b := by
  revert b; decide

/-- JACOBI's flag field gives the flag back (R92). -/
theorem jacobiFlag_ofBool (sa : Bool) :
    ((BitVec.ofBool sa).setWidth 4).extractLsb' 1 3 = 0 ∧ ((BitVec.ofBool sa).setWidth 4).getLsbD 0 = sa := by
  revert sa; decide

/-! ### What each row decodes to -/

/-- A command decodes only where its unused fields are zero (R93 (1)). -/
theorem ifUnusedZero_eq_ok {b : Bool} {x : Except DecodeError Instr} {i : Instr} :
    ifUnusedZero b x = .ok i ↔ b = true ∧ x = .ok i := by
  cases b <;> simp [ifUnusedZero]

theorem return_eq_ok {i j : Instr} : (return j : Except DecodeError Instr) = .ok i ↔ j = i :=
  ⟨Except.ok.inj, congrArg Except.ok⟩

/-! Fields with a row's opcode decode exactly where the row's unused fields are zero, to the command of the other fields (R92); for
CRTSTEP the destinations differ too (R93 (3)). -/

section

variable {f : Fields} {i : Instr}

theorem decodeFields_modexp (h : f.op = 0x01) : decodeFields f = .ok i ↔
    (f.rs4 = 0 ∧ f.fl = 0) ∧ .modexp (regAt f.rd) (regAt f.rs1) (regAt f.rs2) (regAt f.rs3) = i := by
  simp [decodeFields, h, decodeModexp, ifUnusedZero_eq_ok, regOf_bind, return_eq_ok, -bind_pure_comp]

theorem decodeFields_rsaep (h : f.op = 0x02) : decodeFields f = .ok i ↔
    (f.rs4 = 0 ∧ f.fl = 0) ∧ .rsaep (regAt f.rd) (regAt f.rs1) (regAt f.rs2) (regAt f.rs3) = i := by
  simp [decodeFields, h, decodeRsaep, ifUnusedZero_eq_ok, regOf_bind, return_eq_ok, -bind_pure_comp]

theorem decodeFields_montred (h : f.op = 0x03) : decodeFields f = .ok i ↔
    (f.rs2 = 0 ∧ f.rs4 = 0 ∧ f.fl = 0) ∧ .montred (regAt f.rd) (regAt f.rs1) (regAt f.rs3) = i := by
  simp [decodeFields, h, decodeMontred, ifUnusedZero_eq_ok, regOf_bind, return_eq_ok, -bind_pure_comp, and_assoc]

theorem decodeFields_crtstep (h : f.op = 0x04) : decodeFields f = .ok i ↔
    (f.fl = 0 ∧ f.rd ≠ f.rs1) ∧
      .crtstep (regAt f.rd) (regAt f.rs1) (regAt f.rs2) (regAt f.rs3) (regAt f.rs4) = i := by
  simp [decodeFields, h, decodeCrtstep, ifUnusedZero_eq_ok, regOf_bind, return_eq_ok, -bind_pure_comp, ite_eq_iff, and_assoc]

theorem decodeFields_mrround (h : f.op = 0x10) : decodeFields f = .ok i ↔
    (f.rd = 0 ∧ f.rs3 = 0 ∧ f.rs4 = 0 ∧ f.fl = 0) ∧ .mrround (regAt f.rs1) (regAt f.rs2) = i := by
  simp [decodeFields, h, decodeMrround, ifUnusedZero_eq_ok, regOf_bind, return_eq_ok, -bind_pure_comp, and_assoc]

theorem decodeFields_mrtest (h : f.op = 0x11) : decodeFields f = .ok i ↔
    (f.rd = 0 ∧ f.rs2 = 0) ∧ .mrtest (regAt f.rs1) (immField f) = i := by
  simp [decodeFields, h, decodeMrtest, ifUnusedZero_eq_ok, regOf_bind, return_eq_ok, -bind_pure_comp]

theorem decodeFields_lucas (h : f.op = 0x12) : decodeFields f = .ok i ↔
    (f.rd = 0 ∧ f.rs2 = 0 ∧ f.rs3 = 0 ∧ f.rs4 = 0 ∧ f.fl = 0) ∧ .lucas (regAt f.rs1) = i := by
  simp [decodeFields, h, decodeLucas, ifUnusedZero_eq_ok, regOf_bind, return_eq_ok, -bind_pure_comp, and_assoc]

theorem decodeFields_jacobi (h : f.op = 0x13) : decodeFields f = .ok i ↔
    (f.rd = 0 ∧ f.rs2 = 0 ∧ f.rs4 = 0 ∧ f.fl.extractLsb' 1 3 = 0) ∧
      .jacobi (regAt f.rs1) (regAt f.rs3) (f.fl.getLsbD 0) = i := by
  simp [decodeFields, h, decodeJacobi, ifUnusedZero_eq_ok, regOf_bind, return_eq_ok, -bind_pure_comp, and_assoc]

theorem decodeFields_issqr (h : f.op = 0x14) : decodeFields f = .ok i ↔
    (f.rd = 0 ∧ f.rs2 = 0 ∧ f.rs3 = 0 ∧ f.rs4 = 0 ∧ f.fl = 0) ∧ .issqr (regAt f.rs1) = i := by
  simp [decodeFields, h, decodeIssqr, ifUnusedZero_eq_ok, regOf_bind, return_eq_ok, -bind_pure_comp, and_assoc]

end

/-- Only the nine opcodes of R92 decode (R94). -/
theorem opcode_of_decodeFields {f : Fields} {i : Instr} (h : decodeFields f = .ok i) :
    f.op = 0x01 ∨ f.op = 0x02 ∨ f.op = 0x03 ∨ f.op = 0x04 ∨ f.op = 0x10 ∨ f.op = 0x11 ∨ f.op = 0x12 ∨ f.op = 0x13 ∨
      f.op = 0x14 := by
  by_contra hne
  simp only [not_or] at hne
  simp only [decodeFields, hne, if_false, reduceCtorEq] at h

/-! ### Decoding and encoding -/

/-- The fields a well-formed command is written with decode to it (R92, R93). -/
theorem decodeFields_fields {i : Instr} (h : i.wellFormed = true) : decodeFields i.fields = .ok i := by
  cases i with
  | modexp rd rs1 rs2 rs3 => refine (decodeFields_modexp rfl).mpr ?_; simp [Instr.fields]
  | rsaep rd rs1 rs2 rs3 => refine (decodeFields_rsaep rfl).mpr ?_; simp [Instr.fields]
  | montred rd rs1 rs3 => refine (decodeFields_montred rfl).mpr ?_; simp [Instr.fields]
  | crtstep rd rs1 rs2 rs3 rs4 =>
    have hne : rd ≠ rs1 := of_decide_eq_true h
    refine (decodeFields_crtstep rfl).mpr ?_; simp [Instr.fields, regBits_inj, hne]
  | mrround rs1 rs2 => refine (decodeFields_mrround rfl).mpr ?_; simp [Instr.fields]
  | mrtest rs1 imm12 => refine (decodeFields_mrtest rfl).mpr ?_; simp [Instr.fields, immField, imm_of_nibbles]
  | lucas rs1 => refine (decodeFields_lucas rfl).mpr ?_; simp [Instr.fields]
  | jacobi rs1 rs3 sa =>
    obtain ⟨hzero, hflag⟩ := jacobiFlag_ofBool sa
    exact (decodeFields_jacobi rfl).mpr ⟨⟨rfl, rfl, rfl, hzero⟩, by simp only [Instr.fields, regAt_regBits, hflag]⟩
  | issqr rs1 => refine (decodeFields_issqr rfl).mpr ?_; simp [Instr.fields]

/-- Fields that decode are the ones their command is written with (R93, R94). -/
theorem fields_of_decodeFields {f : Fields} {i : Instr} (h : decodeFields f = .ok i) :
    i.wellFormed = true ∧ i.fields = f := by
  have nibbles := nibbles_of_imm f
  obtain ⟨op, rd, rs1, rs2, rs3, rs4, fl⟩ := f
  rcases opcode_of_decodeFields h with hop | hop | hop | hop | hop | hop | hop | hop | hop
  · obtain ⟨unused, rfl⟩ := (decodeFields_modexp hop).mp h; simp_all [Instr.fields, Instr.wellFormed]
  · obtain ⟨unused, rfl⟩ := (decodeFields_rsaep hop).mp h; simp_all [Instr.fields, Instr.wellFormed]
  · obtain ⟨unused, rfl⟩ := (decodeFields_montred hop).mp h; simp_all [Instr.fields, Instr.wellFormed]
  · obtain ⟨unused, rfl⟩ := (decodeFields_crtstep hop).mp h; simp_all [Instr.fields, Instr.wellFormed, regAt_inj]
  · obtain ⟨unused, rfl⟩ := (decodeFields_mrround hop).mp h; simp_all [Instr.fields, Instr.wellFormed]
  · obtain ⟨unused, rfl⟩ := (decodeFields_mrtest hop).mp h; simp_all [Instr.fields, Instr.wellFormed]
  · obtain ⟨unused, rfl⟩ := (decodeFields_lucas hop).mp h; simp_all [Instr.fields, Instr.wellFormed]
  · obtain ⟨⟨_, _, _, hflag⟩, rfl⟩ := (decodeFields_jacobi hop).mp h
    have flag := (jacobiFlag_iff fl).mp hflag
    simp_all [Instr.fields, Instr.wellFormed]
  · obtain ⟨unused, rfl⟩ := (decodeFields_issqr hop).mp h; simp_all [Instr.fields, Instr.wellFormed]

/-- A word is legal exactly where its fields are those of a well-formed command (R93). -/
theorem decode_eq_ok_iff {c : Word} {i : Instr} : decode c = .ok i ↔ i.wellFormed = true ∧ encode i = c := by
  constructor
  · intro h
    obtain ⟨hwf, hf⟩ := fields_of_decodeFields h
    exact ⟨hwf, by rw [encode, hf, packFields_fieldsOf]⟩
  · rintro ⟨hwf, rfl⟩
    rw [decode, encode, fieldsOf_packFields, decodeFields_fields hwf]

/-! ### The rows of the opcode table -/

/-- Masking a word masks its fields. -/
theorem fieldsOf_and (c d : Word) : fieldsOf (c &&& d) = andFields (fieldsOf c) (fieldsOf d) := by
  rw [← fieldsOf_packFields (andFields _ _), ← packFields_and, packFields_fieldsOf, packFields_fieldsOf]

/-- A word that agrees with `k` on the mask `m` does so field by field. -/
theorem fieldsOf_masked {c m k : Word} (h : c &&& m = k) : andFields (fieldsOf c) (fieldsOf m) = fieldsOf k := by
  rw [← fieldsOf_and, h]

theorem and_allOnes8 (b : BitVec 8) : b &&& 255#8 = b :=
  BitVec.and_allOnes

/-- JACOBI's row fixes the upper three bits of the flag field (R92). -/
theorem jacobiFlag_masked (b : BitVec 4) : b &&& 14#4 = 0#4 ↔ b.extractLsb' 1 3 = 0#3 := by
  revert b; decide

/-! Fields that agree with a row's fixed bits have the row's opcode and its unused fields zero, so they decode (R92, R93). -/

section

variable {f : Fields}

theorem decodes_of_modexpRow (h : andFields f (fieldsOf 0xFF0000FF#32) = fieldsOf 0x01000000#32) :
    ∃ i, decodeFields f = .ok i := by
  obtain ⟨hop, unused⟩ : f.op = 0x01 ∧ f.rs4 = 0 ∧ f.fl = 0 := by
    simpa [fieldsOf, andFields, and_allOnes4, and_allOnes8] using h
  exact ⟨_, (decodeFields_modexp hop).mpr ⟨unused, rfl⟩⟩

theorem decodes_of_rsaepRow (h : andFields f (fieldsOf 0xFF0000FF#32) = fieldsOf 0x02000000#32) :
    ∃ i, decodeFields f = .ok i := by
  obtain ⟨hop, unused⟩ : f.op = 0x02 ∧ f.rs4 = 0 ∧ f.fl = 0 := by
    simpa [fieldsOf, andFields, and_allOnes4, and_allOnes8] using h
  exact ⟨_, (decodeFields_rsaep hop).mpr ⟨unused, rfl⟩⟩

theorem decodes_of_montredRow (h : andFields f (fieldsOf 0xFF00F0FF#32) = fieldsOf 0x03000000#32) :
    ∃ i, decodeFields f = .ok i := by
  obtain ⟨hop, unused⟩ : f.op = 0x03 ∧ f.rs2 = 0 ∧ f.rs4 = 0 ∧ f.fl = 0 := by
    simpa [fieldsOf, andFields, and_allOnes4, and_allOnes8] using h
  exact ⟨_, (decodeFields_montred hop).mpr ⟨unused, rfl⟩⟩

theorem decodes_of_crtstepRow (h : andFields f (fieldsOf 0xFF00000F#32) = fieldsOf 0x04000000#32)
    (hne : f.rd ≠ f.rs1) :
    ∃ i, decodeFields f = .ok i := by
  obtain ⟨hop, unused⟩ : f.op = 0x04 ∧ f.fl = 0 := by
    simpa [fieldsOf, andFields, and_allOnes4, and_allOnes8] using h
  exact ⟨_, (decodeFields_crtstep hop).mpr ⟨⟨unused, hne⟩, rfl⟩⟩

theorem decodes_of_mrroundRow (h : andFields f (fieldsOf 0xFFF00FFF#32) = fieldsOf 0x10000000#32) :
    ∃ i, decodeFields f = .ok i := by
  obtain ⟨hop, unused⟩ : f.op = 0x10 ∧ f.rd = 0 ∧ f.rs3 = 0 ∧ f.rs4 = 0 ∧ f.fl = 0 := by
    simpa [fieldsOf, andFields, and_allOnes4, and_allOnes8] using h
  exact ⟨_, (decodeFields_mrround hop).mpr ⟨unused, rfl⟩⟩

theorem decodes_of_mrtestRow (h : andFields f (fieldsOf 0xFFF0F000#32) = fieldsOf 0x11000000#32) :
    ∃ i, decodeFields f = .ok i := by
  obtain ⟨hop, unused⟩ : f.op = 0x11 ∧ f.rd = 0 ∧ f.rs2 = 0 := by
    simpa [fieldsOf, andFields, and_allOnes4, and_allOnes8] using h
  exact ⟨_, (decodeFields_mrtest hop).mpr ⟨unused, rfl⟩⟩

theorem decodes_of_lucasRow (h : andFields f (fieldsOf 0xFFF0FFFF#32) = fieldsOf 0x12000000#32) :
    ∃ i, decodeFields f = .ok i := by
  obtain ⟨hop, unused⟩ : f.op = 0x12 ∧ f.rd = 0 ∧ f.rs2 = 0 ∧ f.rs3 = 0 ∧ f.rs4 = 0 ∧ f.fl = 0 := by
    simpa [fieldsOf, andFields, and_allOnes4, and_allOnes8] using h
  exact ⟨_, (decodeFields_lucas hop).mpr ⟨unused, rfl⟩⟩

theorem decodes_of_jacobiRow (h : andFields f (fieldsOf 0xFFF0F0FE#32) = fieldsOf 0x13000000#32) :
    ∃ i, decodeFields f = .ok i := by
  obtain ⟨hop, unused⟩ : f.op = 0x13 ∧ f.rd = 0 ∧ f.rs2 = 0 ∧ f.rs4 = 0 ∧ f.fl.extractLsb' 1 3 = 0 := by
    simpa [fieldsOf, andFields, and_allOnes4, and_allOnes8, jacobiFlag_masked] using h
  exact ⟨_, (decodeFields_jacobi hop).mpr ⟨unused, rfl⟩⟩

theorem decodes_of_issqrRow (h : andFields f (fieldsOf 0xFFF0FFFF#32) = fieldsOf 0x14000000#32) :
    ∃ i, decodeFields f = .ok i := by
  obtain ⟨hop, unused⟩ : f.op = 0x14 ∧ f.rd = 0 ∧ f.rs2 = 0 ∧ f.rs3 = 0 ∧ f.rs4 = 0 ∧ f.fl = 0 := by
    simpa [fieldsOf, andFields, and_allOnes4, and_allOnes8] using h
  exact ⟨_, (decodeFields_issqr hop).mpr ⟨unused, rfl⟩⟩

end

/-- The low bits of the register fields a command's row uses (R92). -/
def regPositions : Instr → List Nat
  | .modexp _ _ _ _ => [20, 16, 12, 8]
  | .rsaep _ _ _ _ => [20, 16, 12, 8]
  | .montred _ _ _ => [20, 16, 8]
  | .crtstep _ _ _ _ _ => [20, 16, 12, 8, 4]
  | .mrround _ _ => [16, 12]
  | .mrtest _ _ => [16]
  | .lucas _ => [16]
  | .jacobi _ _ _ => [16, 8]
  | .issqr _ => [16]

/-- A command's word has the fixed bits of its row (R92). -/
theorem encode_fixedBits (i : Instr) : encode i &&& i.maskBits = i.matchBits := by
  cases i with
  | modexp rd rs1 rs2 rs3 => exact Laws.FixedBits.modexp rd rs1 rs2 rs3
  | rsaep rd rs1 rs2 rs3 => exact Laws.FixedBits.rsaep rd rs1 rs2 rs3
  | montred rd rs1 rs3 => exact Laws.FixedBits.montred rd rs1 rs3
  | crtstep rd rs1 rs2 rs3 rs4 => exact Laws.FixedBits.crtstep rd rs1 rs2 rs3 rs4
  | mrround rs1 rs2 => exact Laws.FixedBits.mrround rs1 rs2
  | mrtest rs1 imm12 => exact Laws.FixedBits.mrtest rs1 imm12
  | lucas rs1 => exact Laws.FixedBits.lucas rs1
  | jacobi rs1 rs3 sa => exact Laws.FixedBits.jacobi rs1 rs3 sa
  | issqr rs1 => exact Laws.FixedBits.issqr rs1

/-- In the word of a well-formed CRTSTEP, the only command of its row, the two destination fields differ (R93 (3)). -/
theorem encode_crtstep_fields {i : Instr} (h : i.wellFormed = true) (hrow : i.matchBits = 0x04000000#32) :
    (encode i).extractLsb' 20 4 ≠ (encode i).extractLsb' 16 4 := by
  change (fieldsOf (encode i)).rd ≠ (fieldsOf (encode i)).rs1
  rw [encode, fieldsOf_packFields]
  cases i with
  | crtstep rd rs1 rs2 rs3 rs4 => exact regBits_inj.not.mpr (of_decide_eq_true h)
  | _ => exact absurd hrow (by simp [Instr.matchBits])

end Sys2Proof.Machine

namespace Sys2Proof

open Sys2Proof.Machine

/-- Settles O1: packing loses no field, and a well-formed command's fields decode to it, row by row. -/
theorem decodeOfEncode : Obligations.DecodeOfEncode :=
  fun _ h => decode_eq_ok_iff.mpr ⟨h, rfl⟩

/-- Settles O2: fields that decode, row by row, are those their command is written with, and packing them gives the word. -/
theorem encodeOfDecode : Obligations.EncodeOfDecode :=
  fun _ _ h => decode_eq_ok_iff.mp h

/-- Settles O3: a legal word is its command's, which has its row's fixed bits; and a word with a row's fixed bits has the row's
opcode and its unused fields zero. Every register field is below NREG = 16. -/
theorem legalWordsAreTheTableRows : Obligations.LegalWordsAreTheTableRows := by
  intro c
  constructor
  · rintro ⟨i, hi⟩
    obtain ⟨hwf, rfl⟩ := decode_eq_ok_iff.mp hi
    refine ⟨(i.matchBits, i.maskBits, regPositions i), ?_, encode_fixedBits i, fun k _ => BitVec.isLt _,
      encode_crtstep_fields hwf⟩
    cases i <;> simp [Instr.matchBits, Instr.maskBits, regPositions]
  · rintro ⟨row, hrow, hfix, -, hne⟩
    have hfields := fieldsOf_masked hfix
    simp only [List.mem_cons, List.not_mem_nil, or_false] at hrow
    rcases hrow with rfl | rfl | rfl | rfl | rfl | rfl | rfl | rfl | rfl
    · exact decodes_of_modexpRow hfields
    · exact decodes_of_rsaepRow hfields
    · exact decodes_of_montredRow hfields
    · exact decodes_of_crtstepRow hfields (hne rfl)
    · exact decodes_of_mrroundRow hfields
    · exact decodes_of_mrtestRow hfields
    · exact decodes_of_lucasRow hfields
    · exact decodes_of_jacobiRow hfields
    · exact decodes_of_issqrRow hfields

/-- Settles O4: each word by evaluating the decoder. -/
theorem workedEncodingsDecode : Obligations.WorkedEncodingsDecode := by
  unfold Obligations.WorkedEncodingsDecode
  decide

end Sys2Proof
end

section
/-! The host's pseudo-instructions (30_encoding.md R97): LDR and RDR limb by limb (20_memory.md R62, R64, R68), WAIT and the
branches; and the engine's turn without a legal command (R94). -/

namespace Sys2Proof.Machine

/-! ### Limbs of a register -/

/-- A register is what its limbs are (20_memory.md R62). -/
theorem eq_of_limbOf_eq {r v : BitVec Config.W} (h : ∀ j, limbOf r j = limbOf v j) : r = v := by
  refine BitVec.eq_of_getLsbD_eq fun k hk => ?_
  rw [W_eq] at hk
  have hj : k / 32 < Config.LIMBS := Nat.div_lt_of_lt_mul hk
  have hbit := congrArg (BitVec.getLsbD · (k % 32)) (h ⟨k / 32, hj⟩)
  simpa [limbOf, Nat.mod_lt, Nat.div_add_mod] using hbit

/-- The register `r` with the limbs of the list replaced by those of `v`. -/
def withLimbsOf (v r : BitVec Config.W) (l : List (Fin Config.LIMBS)) : BitVec Config.W :=
  l.foldl (fun r j => withLimb r j (limbOf v j)) r

theorem withLimbsOf_concat (v r : BitVec Config.W) (l : List (Fin Config.LIMBS)) (j : Fin Config.LIMBS) :
    withLimbsOf v r (l ++ [j]) = withLimb (withLimbsOf v r l) j (limbOf v j) :=
  List.foldl_concat ..

/-- A limb of the list is that of `v`, any other that of `r` (R64). -/
theorem limbOf_withLimbsOf (v r : BitVec Config.W) (l : List (Fin Config.LIMBS)) (k : Fin Config.LIMBS) :
    limbOf (withLimbsOf v r l) k = if k ∈ l then limbOf v k else limbOf r k := by
  induction l using List.reverseRecOn with
  | nil => simp [withLimbsOf]
  | append_singleton l j ih =>
    rw [withLimbsOf_concat]
    by_cases hk : k = j
    · subst hk; simp [limbOf_withLimb_same]
    · simp [limbOf_withLimb_ne _ _ hk, ih, hk]

/-- All limbs replaced, the register is `v`. -/
theorem withLimbsOf_all (v r : BitVec Config.W) : withLimbsOf v r (List.finRange Config.LIMBS) = v :=
  eq_of_limbOf_eq fun j => by rw [limbOf_withLimbsOf, if_pos (List.mem_finRange j)]

theorem State.setBig_setBig (s : State) (i : Reg) (r r' : BitVec Config.W) : (s.setBig i r).setBig i r' = s.setBig i r' := by
  simp [State.setBig]

theorem State.setBig_bigReg (s : State) (i : Reg) : s.setBig i (s.bigReg i) = s := by
  simp [State.setBig, State.bigReg]

/-- Limb writes made one after another on an idle engine replace those limbs and nothing else (R64). -/
theorem State.foldl_hostWrite_limbs {s : State} (hb : s.busy = false) (i : Reg) (v : BitVec Config.W)
    (l : List (Fin Config.LIMBS)) :
    l.foldl (fun u j => u.hostWrite (limbAddr s.rfBase i j) 4 (limbOf v j)) s
      = s.setBig i (withLimbsOf v (s.bigReg i) l) := by
  induction l using List.reverseRecOn with
  | nil => exact (s.setBig_bigReg i).symm
  | append_singleton l j ih =>
    rw [List.foldl_concat, ih, withLimbsOf_concat]
    refine ((s.setBig i _).hostWrite_limb i j (limbOf v j) hb).trans ?_
    rw [State.bigReg_setBig_same, State.setBig_setBig]

/-- The first `n` limbs replaced and then limb `n` are the first `n + 1` replaced. -/
theorem withLimbsOf_take_succ (v r : BitVec Config.W) {n : Nat} (hn : n < Config.LIMBS) :
    withLimb (withLimbsOf v r ((List.finRange Config.LIMBS).take n)) ⟨n, hn⟩ (limbOf v ⟨n, hn⟩)
      = withLimbsOf v r ((List.finRange Config.LIMBS).take (n + 1)) := by
  rw [← withLimbsOf_concat, List.take_add_one, List.getElem?_eq_getElem (by simpa using hn), List.getElem_finRange]
  rfl

/-! ### LDR -/

theorem stateAt_succ {s t : State} {n : Nat} (h : step (stateAt s n) = .next t) : stateAt s (n + 1) = t := by
  rw [stateAt, afterStep, h]

theorem step_ldr {s : State} {i : Reg} {v : BitVec Config.W} (h : s.env[s.epc]? = some (.ldr i v)) :
    step s = .next (s.ldr i v) :=
  step_env h

/-- Before the last limb the host stays at its entry, its place being the next limb (R97). -/
theorem State.nextLimb_next {s : State} (h : s.limb.val + 1 < Config.LIMBS) :
    s.nextLimb = { s with limb := ⟨s.limb.val + 1, h⟩ } := by
  have hlimb : s.limb + 1 = ⟨s.limb.val + 1, h⟩ := Fin.ext (by
    rw [Fin.val_add]
    exact Nat.mod_eq_of_lt h)
  rw [State.nextLimb_inside h, hlimb]

/-- `s` in an LDR of `x[i]`: the register holds `r` so far, the host is at limb `j` (R97, 20_memory.md R68). -/
def State.loading (s : State) (i : Reg) (r : BitVec Config.W) (j : Fin Config.LIMBS) (a : Option BusAnswer) : State :=
  { s.setBig i r with limb := j, answer := a }

theorem State.bigReg_loading (s : State) (i : Reg) (r : BitVec Config.W) (j : Fin Config.LIMBS) (a : Option BusAnswer) :
    (s.loading i r j a).bigReg i = r :=
  s.bigReg_setBig_same i r

theorem State.setBig_loading (s : State) (i : Reg) (r r' : BitVec Config.W) (j : Fin Config.LIMBS) (a : Option BusAnswer) :
    (s.loading i r j a).setBig i r' = s.loading i r' j a :=
  congrArg (fun t : State => { t with limb := j, answer := a }) (s.setBig_setBig i r r')

/-- A step of an LDR on an idle engine at limb `j` loads that limb, and the host goes on (R68). -/
theorem step_loading {s : State} {i : Reg} {v : BitVec Config.W} (hb : s.busy = false)
    (ho : s.env[s.epc]? = some (.ldr i v)) (r : BitVec Config.W) (j : Fin Config.LIMBS) (a : Option BusAnswer) :
    step (s.loading i r j a) = .next (s.loading i (withLimb r j (limbOf v j)) j (some .written)).nextLimb := by
  rw [step_ldr (s := s.loading i r j a) ho, (s.loading i r j a).ldr_idle i v hb, State.bigReg_loading, State.setBig_loading]
  rfl

/-- Up to its last limb an LDR on an idle engine has loaded a limb a step (R68). -/
theorem stateAt_loading {s : State} {i : Reg} {v : BitVec Config.W} (hb : s.busy = false)
    (ho : s.env[s.epc]? = some (.ldr i v)) (hl : s.limb.val = 0) (n : Nat) (hn : n < Config.LIMBS) :
    ∃ a, stateAt s n = s.loading i (withLimbsOf v (s.bigReg i) ((List.finRange Config.LIMBS).take n)) ⟨n, hn⟩ a := by
  induction n with
  | zero =>
    have hlimb : (⟨0, hn⟩ : Fin Config.LIMBS) = s.limb := Fin.ext hl.symm
    refine ⟨s.answer, ?_⟩
    rw [hlimb]
    exact congrArg (fun t : State => { t with limb := s.limb, answer := s.answer }) (s.setBig_bigReg i).symm
  | succ n ih =>
    obtain ⟨a, ha⟩ := ih (Nat.lt_of_succ_lt hn)
    refine ⟨some .written, stateAt_succ ?_⟩
    rw [ha, step_loading hb ho, withLimbsOf_take_succ, State.nextLimb_next hn]
    rfl

/-- After LIMBS steps an LDR on an idle engine is over and its register loaded (30_encoding.md R97). -/
theorem stateAt_ldr {s : State} {i : Reg} {v : BitVec Config.W} (hb : s.busy = false)
    (ho : s.env[s.epc]? = some (.ldr i v)) (hl : s.limb.val = 0) :
    stateAt s Config.LIMBS = { s.setBig i v with answer := some .written, epc := s.epc + 1 } := by
  obtain ⟨a, ha⟩ := stateAt_loading hb ho hl 511 (by decide)
  have hlimb : s.limb = 0 := Fin.ext hl
  refine stateAt_succ (n := 511) ?_
  rw [ha, step_loading hb ho, withLimbsOf_take_succ, List.take_of_length_le (by simp), withLimbsOf_all,
    State.nextLimb_last rfl, ← hlimb]
  rfl

/-! ### RDR -/

theorem step_rdr {s : State} {i : Reg} (h : s.env[s.epc]? = some (.rdr i)) : step s = .next (s.rdr i) :=
  step_env h

/-- `s` in an RDR: the host has added up `g` so far and is at limb `j` (R97, 20_memory.md R68). -/
def State.reading (s : State) (g : Nat) (j : Fin Config.LIMBS) (a : Option BusAnswer) : State :=
  { s with limb := j, gathered := g, answer := a }

/-- A step of an RDR on an idle engine at limb `j` adds that limb to the sum, which starts at limb 0 (R97). -/
theorem step_reading {s : State} {i : Reg} (hb : s.busy = false) (ho : s.env[s.epc]? = some (.rdr i)) (g : Nat)
    (j : Fin Config.LIMBS) (a : Option BusAnswer) :
    step (s.reading g j a) =
      .next (s.reading ((if j.val = 0 then 0 else g) + (limbOf (s.bigReg i) j).toNat * 2 ^ (32 * j.val)) j
        (some (.data (limbOf (s.bigReg i) j)))).nextLimb := by
  rw [step_rdr (s := s.reading g j a) ho, (s.reading g j a).rdr_idle i hb]
  rfl

/-- The low limbs up to limb `j` are the low limbs before it and limb `j` (20_memory.md R62). -/
theorem State.x_mod_succ_limb (s : State) (i : Reg) (j : Fin Config.LIMBS) :
    s.x i % (2 ^ 32) ^ (j.val + 1) =
      s.x i % (2 ^ 32) ^ j.val + (limbOf (s.bigReg i) j).toNat * 2 ^ (32 * j.val) := by
  rw [Nat.mod_pow_succ, limbOf_bigReg_toNat, pow_mul, mul_comm]

/-- A refused read adds nothing to the sum, which starts at limb 0 all the same (log 9). -/
theorem State.gather_busError (s : State) :
    (s.answered .busError).gather =
      { s with answer := some .busError, gathered := if s.limb.val = 0 then 0 else s.gathered } := by
  simp [State.gather, State.answered, answerValue]

/-- Up to its last limb an RDR on an idle engine has added up a limb a step (R68). -/
theorem stateAt_reading {s : State} {i : Reg} (hb : s.busy = false) (ho : s.env[s.epc]? = some (.rdr i))
    (hl : s.limb.val = 0) (n : Nat) (hn : n < Config.LIMBS) :
    ∃ g a, stateAt s n = s.reading g ⟨n, hn⟩ a ∧ (if n = 0 then 0 else g) = s.x i % (2 ^ 32) ^ n := by
  induction n with
  | zero =>
    have hlimb : (⟨0, hn⟩ : Fin Config.LIMBS) = s.limb := Fin.ext hl.symm
    exact ⟨s.gathered, s.answer, by rw [hlimb]; rfl, by simp [Nat.mod_one]⟩
  | succ n ih =>
    obtain ⟨g, a, ha, hg⟩ := ih (Nat.lt_of_succ_lt hn)
    refine ⟨_, some (.data (limbOf (s.bigReg i) ⟨n, Nat.lt_of_succ_lt hn⟩)), stateAt_succ ?_,
      (s.x_mod_succ_limb i ⟨n, Nat.lt_of_succ_lt hn⟩).symm⟩
    rw [ha, step_reading hb ho, hg, State.nextLimb_next hn]
    rfl

/-- After LIMBS steps an RDR on an idle engine is over and the host has the register's value (30_encoding.md R97). -/
theorem stateAt_rdr {s : State} {i : Reg} (hb : s.busy = false) (ho : s.env[s.epc]? = some (.rdr i))
    (hl : s.limb.val = 0) :
    ∃ a : BusAnswer, stateAt s Config.LIMBS = { s with answer := some a, gathered := s.x i, epc := s.epc + 1 } := by
  obtain ⟨g, a, ha, hg⟩ := stateAt_reading hb ho hl 511 (by decide)
  have hlimb : s.limb = 0 := Fin.ext hl
  have hx := (s.x_mod_succ_limb i ⟨511, by decide⟩).symm.trans (Nat.mod_eq_of_lt (s.x_lt_limbs i))
  refine ⟨.data (limbOf (s.bigReg i) ⟨511, by decide⟩), stateAt_succ (n := 511) ?_⟩
  rw [ha, step_reading hb ho, hg, hx, State.nextLimb_last rfl, ← hlimb]
  rfl

/-! ### WAIT -/

/-- A WAIT that reads `BUSY = 0` is over, the host having the status word (30_encoding.md R97). -/
theorem step_waitIdle {s : State} (h : s.env[s.epc]? = some .wait) (hb : s.busy = false) :
    step s = .next s.waited.advance := by
  rw [step_env h, envStep, if_neg (Bool.eq_false_iff.mp hb)]

end Sys2Proof.Machine

namespace Sys2Proof

open Sys2Proof.Machine

/-- Settles O58: the limb writes replace all limbs of the register; an LDR entry is such a write a step, by induction on the limb
reached; while busy the write is refused. -/
theorem ldrExpansionLoadsTheRegister : Obligations.LdrExpansionLoadsTheRegister := by
  refine ⟨fun s i v hb => ?_, ?_⟩
  · have hfold := State.foldl_hostWrite_limbs hb i v (List.finRange Config.LIMBS)
    rw [withLimbsOf_all] at hfold
    refine ⟨s.setBig i v, ?_, s.bigReg_setBig_same i v, fun k hk => congrArg BitVec.toNat (s.bigReg_setBig_ne v hk), rfl,
      stateAt_ldr hb⟩
    rw [ldrWrites, List.foldl_map]
    exact hfold
  · rintro s i v a ho rfl
    rw [step_ldr ho]
    refine ⟨?_, fun hb => ?_⟩
    · rw [State.ldr, State.hostStore, State.nextLimb, State.answered_limb, State.answered_epc, State.hostWrite_limbField,
        State.hostWrite_epc]
      rfl
    · rw [s.ldr_busy i v hb]; rfl

/-- Settles O59: an RDR entry adds a limb a step, the sum being the register modulo `2 ^ (32 * n)` after `n` limbs; while busy a
read adds nothing. -/
theorem rdrReadsTheRegister : Obligations.RdrReadsTheRegister := by
  refine ⟨fun s i hb ho hl => ⟨stateAt_rdr hb ho hl, ?_⟩, fun s i ho hb => ?_⟩
  · rw [s.x_eq_sum_limbs i]
    refine Finset.sum_congr rfl fun j _ => ?_
    have hread := s.readAnswer_limb_idle hb i j
    rw [limbAddr] at hread
    rw [hread]
  · rw [step_rdr ho, s.rdr_busy i hb, State.gather_busError]
    rfl

/-- Settles O6: each way the engine's turn comes, by the law of the turn with an illegal word and of the idle turn. -/
theorem engineTurnWithoutALegalCommand : Obligations.EngineTurnWithoutALegalCommand := by
  refine ⟨fun s e hb hd => ⟨fun ho => ?_, fun ho => ?_, fun ho => ?_⟩, fun s hb => ⟨fun ho => ?_, fun ho => ?_⟩,
    ⟨.unknownOpcode, by decide⟩, ⟨.unknownOpcode, by decide⟩⟩
  · rw [step_over ho, engineTurn_illegal hb hd]; rfl
  · rw [step_waitBusy ho hb, engineTurn_illegal hb hd]; rfl
  · rw [step_engineEntry ho]
    exact engineTurn_illegal (s := { s with epc := s.epc + 1 }) hb hd
  · rw [step_over ho, engineTurn_idle hb]
  · rw [step_engineEntry ho]
    exact engineTurn_idle (s := { s with epc := s.epc + 1 }) hb

/-- Settles O60: the step of each entry; `BNV` branches where `BV` goes on. -/
theorem waitAndBranchFollowStatus : Obligations.WaitAndBranchFollowStatus := by
  refine fun s l => ⟨fun ho hb => ?_, step_env, step_env, fun ho => ?_⟩
  · exact step_waitIdle ho hb
  · rw [step_env ho, envStep, polledV]
    cases s.polled.getLsbD 4 <;> rfl

end Sys2Proof
end

section
/-! MODEXP and RSAEP (40_modexp.md): the loop of the exponentiation routine (R121, R122), what a command that writes one register
leaves (10_state.md R36), and the round trip of encryption and decryption (R127). -/

namespace Sys2Proof.Machine

/-! ### The exponentiation routine -/

/-- A number has no bits beyond its bit length (00_scope.md R10). -/
theorem lt_two_pow_bitlen (v : Nat) : v < 2 ^ bitlen v := by
  rw [bitlen]
  split
  · omega
  · exact Nat.lt_log2_self

/-- The accumulator stays a residue: every product is reduced (R121). -/
theorem modExpLoop_lt {n acc : Nat} (k e base : Nat) (hacc : acc < n) : modExpLoop n k e base acc < n := by
  induction k generalizing e base acc with
  | zero => exact hacc
  | succ k ih =>
    refine ih (e / 2) (base * base % n) ?_
    split
    · exact Nat.mod_lt _ (Nat.zero_lt_of_lt hacc)
    · exact hacc

/-- The invariant of the loop: accumulator times base to the exponent left, as long as the exponent has no more than the `k` bits
still to come (R121). -/
theorem modExpLoop_modEq {n k e : Nat} (base acc : Nat) (he : e < 2 ^ k) :
    modExpLoop n k e base acc ≡ acc * base ^ e [MOD n] := by
  induction k generalizing e base acc with
  | zero =>
    obtain rfl : e = 0 := by simpa using he
    rw [modExpLoop, pow_zero, mul_one]
  | succ k ih =>
    have hsquare : (base * base % n) ^ (e / 2) ≡ base ^ (2 * (e / 2)) [MOD n] := by
      rw [pow_mul, sq]
      exact (Nat.mod_modEq _ n).pow _
    refine (ih _ _ (by omega)).trans ?_
    split
    · next hodd =>
      calc acc * base % n * (base * base % n) ^ (e / 2)
          ≡ acc * base * base ^ (2 * (e / 2)) [MOD n] := (Nat.mod_modEq _ n).mul hsquare
        _ = acc * base ^ (2 * (e / 2) + 1) := by rw [pow_succ']; ring
        _ = acc * base ^ e := by rw [show 2 * (e / 2) + 1 = e by omega]
    · next heven =>
      rw [show 2 * (e / 2) = e by omega] at hsquare
      exact hsquare.mul_left acc

/-- `ModExp(b, e, n)` is the power modulo `n` (R122). -/
theorem modExp_eq {n : Nat} (b e : Nat) (hn : 2 ≤ n) : modExp b e n = b ^ e % n := by
  have hloop := modExpLoop_modEq (n := n) b 1 (lt_two_pow_bitlen e)
  rw [one_mul] at hloop
  exact (Nat.mod_eq_of_lt (modExpLoop_lt _ _ _ hn)).symm.trans hloop

/-! ### A command that writes one register -/

/-- Completing with `x[rd] <- r` leaves `r` in `x[rd]`, every other register, and everything but `BUSY` and `DONE` (10_state.md R36). -/
theorem exec_writes_register {i : Instr} {s : State} {rd : Reg} {r : Nat} (hr : r < 2 ^ Config.W)
    (h : exec i s = .next (s.setX rd r).complete) :
    ∃ t : State, exec i s = .next t ∧ t.x rd = r ∧ (∀ k : Reg, k ≠ rd → t.x k = s.x k) ∧
      t = { s with big := t.big, busy := false, done := true } :=
  ⟨_, h, s.x_setX_same rd hr, fun _ hk => s.x_setX_ne r hk, rfl⟩

/-- A residue of a register's value fits a register (00_scope.md R11). -/
theorem State.mod_x_lt {s : State} {i : Reg} (a : Nat) (h : 2 ≤ s.x i) : a % s.x i < 2 ^ Config.W :=
  (Nat.mod_lt a (Nat.zero_lt_of_lt h)).trans (s.x_lt i)

/-! ### MODEXP and RSAEP -/

section
variable {s : State} (rd : Reg) {rs1 rs2 rs3 : Reg}

/-- MODEXP with a modulus below 2 faults (R120). -/
theorem exec_modexp_fault (hn : s.x rs3 < 2) : exec (.modexp rd rs1 rs2 rs3) s = .next (s.raiseFault .operandRange) := by
  rw [exec, execModexp, modexpRule, if_pos hn, State.finish_error]

/-- MODEXP with a modulus from 2 on writes the power (R120, R122). -/
theorem exec_modexp (hn : 2 ≤ s.x rs3) :
    exec (.modexp rd rs1 rs2 rs3) s = .next (s.setX rd (s.x rs1 ^ s.x rs2 % s.x rs3)).complete := by
  rw [exec, execModexp, modexpRule, if_neg (by omega), modExp_eq _ _ hn, State.finish_ok, State.apply]

/-- RSAEP with a modulus below 2 faults, whatever the message (R125, R215). -/
theorem exec_rsaep_modulus_fault (hn : s.x rs3 < 2) :
    exec (.rsaep rd rs1 rs2 rs3) s = .next (s.raiseFault .operandRange) := by
  rw [exec, execRsaep, rsaepRule, if_pos hn, State.finish_error]

/-- RSAEP with a message not below the modulus faults (R125). -/
theorem exec_rsaep_message_fault (hn : 2 ≤ s.x rs3) (hm : s.x rs3 ≤ s.x rs1) :
    exec (.rsaep rd rs1 rs2 rs3) s = .next (s.raiseFault .messageOutOfRange) := by
  rw [exec, execRsaep, rsaepRule, if_neg (by omega), if_pos hm, State.finish_error]

/-- RSAEP with a message below the modulus does what MODEXP does (R125). -/
theorem exec_rsaep (hn : 2 ≤ s.x rs3) (hm : s.x rs1 < s.x rs3) :
    exec (.rsaep rd rs1 rs2 rs3) s = .next (s.setX rd (s.x rs1 ^ s.x rs2 % s.x rs3)).complete := by
  rw [exec, execRsaep, rsaepRule, if_neg (by omega), if_neg (by omega), modExp_eq _ _ hn, State.finish_ok, State.apply]

end

/-! ### The round trip -/

/-- Fermat's little theorem for exponents: modulo a prime `p`, positive exponents that agree modulo `p - 1` give equal powers, of
multiples of `p` too. -/
theorem pow_modEq_of_exponents {p i j : Nat} (hp : p.Prime) (hi : i ≠ 0) (hj : j ≠ 0) (h : i ≡ j [MOD p - 1]) (a : Nat) :
    a ^ i ≡ a ^ j [MOD p] := by
  have := Fact.mk hp
  rw [← ZMod.natCast_eq_natCast_iff, Nat.cast_pow, Nat.cast_pow]
  by_cases ha : (a : ZMod p) = 0
  · rw [ha, zero_pow hi, zero_pow hj]
  · exact pow_eq_pow_of_modEq h (ZMod.pow_card_sub_one_eq_one ha)

/-- Numbers that agree modulo every prime factor of a squarefree modulus agree modulo it. -/
theorem modEq_of_squarefree {n a b : Nat} (hn : Squarefree n) (h : ∀ p : Nat, p.Prime → p ∣ n → a ≡ b [MOD p]) :
    a ≡ b [MOD n] := by
  have hdvd (m : Nat) : a ≡ b [MOD m] ↔ m ∣ ((b : Int) - a).natAbs := Nat.modEq_iff_dvd.trans Int.natCast_dvd
  rw [hdvd, ← Nat.prod_primeFactors_of_squarefree hn]
  exact Finset.prod_primes_dvd _ (fun p hp => (Nat.prime_of_mem_primeFactors hp).prime)
    fun p hp => (hdvd p).mp (h p (Nat.prime_of_mem_primeFactors hp) (Nat.dvd_of_mem_primeFactors hp))

/-- RSA: exponents inverse to each other modulo every `p - 1` undo each other on residues of a squarefree modulus (R127). -/
theorem rsa_pow_pow_mod {m e d n : Nat} (hn : Squarefree n) (hm : m < n) (hed : 1 ≤ e * d)
    (h : ∀ p : Nat, p.Prime → p ∣ n → e * d ≡ 1 [MOD p - 1]) : (m ^ e % n) ^ d % n = m := by
  have hinv : m ^ (e * d) ≡ m [MOD n] := modEq_of_squarefree hn fun p hp hpn => by
    simpa using pow_modEq_of_exponents hp (Nat.ne_of_gt hed) one_ne_zero (h p hp hpn) m
  rw [← Nat.pow_mod, ← pow_mul, hinv, Nat.mod_eq_of_lt hm]

end Sys2Proof.Machine

namespace Sys2Proof

open Sys2Proof.Machine

/-- Settles O10: the value is `modExp_eq`; the other equations are facts of the power modulo `n`. -/
theorem modExpIsPowerModulo : Obligations.ModExpIsPowerModulo := by
  intro b e n hn
  simp only [modExp_eq _ _ hn]
  refine ⟨trivial, Nat.mod_lt _ (by omega), ?_, fun he => ?_, ?_, Nat.pow_mod b e n⟩
  · rw [pow_zero, Nat.mod_eq_of_lt hn]
  · rw [zero_pow (by omega), Nat.zero_mod]
  · rw [pow_one]

/-- Settles O11, by the command's two cases. -/
theorem modexpOutcome : Obligations.ModexpOutcome :=
  fun _ rd _ _ _ => ⟨exec_modexp_fault rd, fun hn => exec_writes_register (State.mod_x_lt _ hn) (exec_modexp rd hn)⟩

/-- Settles O12, by the command's three cases. -/
theorem rsaepOutcome : Obligations.RsaepOutcome :=
  fun _ rd _ _ _ => ⟨exec_rsaep_modulus_fault rd, exec_rsaep_message_fault rd,
    fun hn hm => exec_writes_register (State.mod_x_lt _ hn) (exec_rsaep rd hn hm)⟩

/-- Settles O13: RSAEP leaves `m ^ e mod n` in `rc` and keeps `rdx` and `rn`, so MODEXP leaves its `d`-th power, which is `m`. -/
theorem rsaRoundTrip : Obligations.RsaRoundTrip := by
  intro s rm re rn rc rdx rp hcd hcn hn hsq hm hed h
  obtain ⟨-, -, encrypts⟩ := rsaepOutcome s rc rm re rn
  obtain ⟨t, hst, hcipher, hkeep, -⟩ := encrypts hn hm
  have hd : t.x rdx = s.x rdx := hkeep rdx hcd.symm
  have hmod : t.x rn = s.x rn := hkeep rn hcn.symm
  obtain ⟨-, decrypts⟩ := modexpOutcome t rp rc rdx rn
  obtain ⟨u, htu, hplain, -⟩ := decrypts (hmod ▸ hn)
  refine ⟨t, u, hst, htu, ?_⟩
  rw [hplain, hcipher, hd, hmod]
  exact rsa_pow_pow_mod hsq hm hed h

end Sys2Proof
end

section
/-! MONTRED (41_montgomery.md): Newton's iteration for the inverse modulo a power of two and the reduction routine (R141), and
arithmetic in Montgomery form (R142). -/

namespace Sys2Proof.Machine

/-! ### The modulus length -/

/-- The bit length of 00_scope.md R10 is Mathlib's `Nat.size`. -/
theorem bitlen_eq_size (v : Nat) : bitlen v = Nat.size v := by
  rw [bitlen]
  split
  · next hzero => rw [hzero, Nat.size_zero]
  · next hpos =>
    refine le_antisymm (Nat.lt_size.mpr ?_) (Nat.size_le.mpr Nat.lt_log2_self)
    exact Nat.log2_self_le hpos

/-- `k` of R141, with the bit length spelled as Mathlib's. -/
theorem montBits_eq (n : Nat) : montBits n = 32 * ((Nat.size n + 31) / 32) := by
  rw [montBits, bitlen_eq_size]

/-- The modulus is below `2^k` (R141). -/
theorem lt_two_pow_montBits (n : Nat) : n < 2 ^ montBits n := by
  refine (lt_two_pow_bitlen n).trans_le (Nat.pow_le_pow_right two_pos ?_)
  rw [montBits]
  omega

/-! ### Newton's iteration -/

/-- A step of Newton's iteration squares the error `N * y + 1`, which starts as `N + 1`. -/
theorem montInvLoop_error (n rm t : Nat) : n * montInvLoop n rm t + 1 ≡ (n + 1) ^ 2 ^ t [MOD rm] := by
  induction t with
  | zero => rw [montInvLoop, mul_one, pow_zero, pow_one]
  | succ t ih =>
    rw [montInvLoop]
    generalize montInvLoop n rm t = y at ih
    calc n * (y * (2 + n * y) % rm) + 1
        ≡ n * (y * (2 + n * y)) + 1 [MOD rm] := ((Nat.mod_modEq _ rm).mul_left n).add_right 1
      _ = (n * y + 1) ^ 2 := by ring
      _ ≡ ((n + 1) ^ 2 ^ t) ^ 2 [MOD rm] := ih.pow 2
      _ = (n + 1) ^ 2 ^ (t + 1) := by rw [← pow_mul, ← pow_succ]

/-- `Ninv` is `-(N^-1)` modulo `2^k` for odd `N`: `bitlen k` squarings make the even number `N + 1` a multiple of `2^k` (R141). -/
theorem montInv_error {n : Nat} (hodd : n % 2 = 1) (k : Nat) : n * montInv n k + 1 ≡ 0 [MOD 2 ^ k] := by
  have heven : 2 ∣ n + 1 := by omega
  have hzero : 2 ^ k ∣ (n + 1) ^ 2 ^ bitlen k :=
    (pow_dvd_pow 2 (lt_two_pow_bitlen k).le).trans (pow_dvd_pow_of_dvd heven _)
  calc n * montInv n k + 1
      ≡ n * montInvLoop n (2 ^ k) (bitlen k) + 1 [MOD 2 ^ k] := ((Nat.mod_modEq _ _).mul_left n).add_right 1
    _ ≡ (n + 1) ^ 2 ^ bitlen k [MOD 2 ^ k] := montInvLoop_error n (2 ^ k) (bitlen k)
    _ ≡ 0 [MOD 2 ^ k] := Nat.modEq_zero_iff_dvd.mpr hzero

/-! ### The reduction routine -/

/-- The multiple of `N` that R141 adds makes the sum divisible by `2^k`. -/
theorem dvd_add_redcQuotient_mul {n : Nat} (hodd : n % 2 = 1) (t k : Nat) :
    2 ^ k ∣ t + t % 2 ^ k * montInv n k % 2 ^ k * n := by
  have hq : t % 2 ^ k * montInv n k % 2 ^ k ≡ t * montInv n k [MOD 2 ^ k] :=
    (Nat.mod_modEq _ _).trans ((Nat.mod_modEq t _).mul_right _)
  refine Nat.modEq_zero_iff_dvd.mp ?_
  calc t + t % 2 ^ k * montInv n k % 2 ^ k * n
      ≡ t + t * montInv n k * n [MOD 2 ^ k] := (hq.mul_right n).add_left t
    _ = t * (n * montInv n k + 1) := by ring
    _ ≡ t * 0 [MOD 2 ^ k] := (montInv_error hodd k).mul_left t

/-- The conditional subtraction makes a number below `2 * N` a residue (R141). -/
theorem redc_lt {t n : Nat} (ht : t < n * 2 ^ montBits n) : redc t n < n := by
  have hq := Nat.mod_lt (t % 2 ^ montBits n * montInv n (montBits n)) (Nat.two_pow_pos (montBits n))
  have hu : (t + t % 2 ^ montBits n * montInv n (montBits n) % 2 ^ montBits n * n) / 2 ^ montBits n < 2 * n := by
    rw [Nat.div_lt_iff_lt_mul (Nat.two_pow_pos _)]
    calc t + t % 2 ^ montBits n * montInv n (montBits n) % 2 ^ montBits n * n
        < n * 2 ^ montBits n + 2 ^ montBits n * n := Nat.add_lt_add_of_lt_of_le ht (Nat.mul_le_mul_right n hq.le)
      _ = 2 * n * 2 ^ montBits n := by ring
  dsimp only [redc]
  split <;> omega

/-- The conditional subtraction keeps the residue class (R141). -/
theorem subtractModulus_modEq (u n : Nat) : (if n ≤ u then u - n else u) ≡ u [MOD n] := by
  split
  · next hle => exact (Nat.modEq_iff_dvd' (Nat.sub_le u n)).mpr (by rw [Nat.sub_sub_self hle])
  · rfl

/-- `Redc(T, N) * 2^k` is congruent to `T` (R141). -/
theorem redc_mul_modEq {n : Nat} (hodd : n % 2 = 1) (t : Nat) : redc t n * 2 ^ montBits n ≡ t [MOD n] := by
  refine ((subtractModulus_modEq _ n).mul_right _).trans ?_
  rw [Nat.div_mul_cancel (dvd_add_redcQuotient_mul hodd t _)]
  exact Nat.add_mul_mod_self_right t _ n

/-! ### Montgomery forms -/

/-- `Redc` divides by `2^k` modulo an odd `N`: the factor `2^k` cancels (R142). -/
theorem redc_eq_mod {t n c : Nat} (hodd : n % 2 = 1) (ht : t < n * 2 ^ montBits n) (hc : t ≡ c * 2 ^ montBits n [MOD n]) :
    redc t n = c % n := by
  have hcoprime : Nat.Coprime n (2 ^ montBits n) := .pow_right _ (Nat.coprime_two_right.mpr (Nat.odd_iff.mpr hodd))
  have hmod : redc t n ≡ c [MOD n] := ((redc_mul_modEq hodd t).trans hc).cancel_right_of_coprime hcoprime
  exact (Nat.mod_eq_of_lt (redc_lt ht)).symm.trans hmod

/-- The product of the Montgomery forms of `a` and `b` is `a * b * 2^k` times `2^k` modulo `N` (R142). -/
theorem mul_forms_modEq (a b r n : Nat) : (a * r % n) * (b * r % n) ≡ a * b * r * r [MOD n] :=
  calc (a * r % n) * (b * r % n)
      ≡ a * r * (b * r) [MOD n] := (Nat.mod_modEq _ n).mul (Nat.mod_modEq _ n)
    _ = a * b * r * r := by ring

/-! ### MONTRED -/

section
variable {s : State} (rd : Reg) {rs1 rs3 : Reg}

/-- MONTRED with an even modulus faults, whatever the operand (R140). -/
theorem exec_montred_modulus_fault (hn : s.x rs3 % 2 = 0) :
    exec (.montred rd rs1 rs3) s = .next (s.raiseFault .operandRange) := by
  rw [exec, execMontred, montredRule, if_pos hn, State.finish_error]

/-- MONTRED with an operand not below `N * 2^k` faults (R140). -/
theorem exec_montred_operand_fault (hn : s.x rs3 % 2 = 1) (ht : s.x rs3 * 2 ^ montBits (s.x rs3) ≤ s.x rs1) :
    exec (.montred rd rs1 rs3) s = .next (s.raiseFault .operandRange) := by
  rw [exec, execMontred, montredRule, if_neg (by omega), if_pos ht, State.finish_error]

/-- MONTRED with an odd modulus and an operand below `N * 2^k` writes the reduction (R140). -/
theorem exec_montred (hn : s.x rs3 % 2 = 1) (ht : s.x rs1 < s.x rs3 * 2 ^ montBits (s.x rs3)) :
    exec (.montred rd rs1 rs3) s = .next (s.setX rd (redc (s.x rs1) (s.x rs3))).complete := by
  rw [exec, execMontred, montredRule, if_neg (by omega), if_neg (by omega), State.finish_ok, State.apply]

/-- MONTRED of an operand congruent to `c * 2^k` leaves `c mod N` (R140, R142). -/
theorem exec_montred_leaves_mod {c : Nat} (hn : s.x rs3 % 2 = 1) (ht : s.x rs1 < s.x rs3 * 2 ^ montBits (s.x rs3))
    (hc : s.x rs1 ≡ c * 2 ^ montBits (s.x rs3) [MOD s.x rs3]) :
    ∃ t : State, exec (.montred rd rs1 rs3) s = .next t ∧ t.x rd = c % s.x rs3 := by
  obtain ⟨t, hexec, hrd, -⟩ := exec_writes_register ((redc_lt ht).trans (s.x_lt rs3)) (exec_montred rd hn ht)
  exact ⟨t, hexec, hrd.trans (redc_eq_mod hn ht hc)⟩

end

end Sys2Proof.Machine

namespace Sys2Proof

open Sys2Proof.Machine

/-- Settles O14, by the command's three cases. -/
theorem montredOutcome : Obligations.MontredOutcome := by
  rintro s rd rs1 rs3 k rfl
  rw [← montBits_eq]
  refine ⟨exec_montred_modulus_fault rd, exec_montred_operand_fault rd, fun hn ht => ?_⟩
  have hlt := redc_lt ht
  have hmod := redc_mul_modEq hn (s.x rs1)
  obtain ⟨t, hexec, hrd, hframe⟩ := exec_writes_register (hlt.trans (s.x_lt rs3)) (exec_montred rd hn ht)
  rw [← hrd] at hlt hmod
  exact ⟨t, hexec, hlt, hmod, hframe⟩

/-- Settles O15: both operands are below `N * 2^k` and congruent to `2^k` times the result. -/
theorem montredMultipliesMontgomeryForms : Obligations.MontredMultipliesMontgomeryForms := by
  rintro s rd rs1 rs3 a b k rfl hn
  rw [← montBits_eq]
  have hform (c : Nat) : c * 2 ^ montBits (s.x rs3) % s.x rs3 < s.x rs3 := Nat.mod_lt _ (by omega)
  refine ⟨fun h => exec_montred_leaves_mod rd hn ?_ ?_, fun h => exec_montred_leaves_mod rd hn ?_ ?_⟩ <;> rw [h]
  · exact Nat.mul_lt_mul'' (hform a) ((hform b).trans (lt_two_pow_montBits _))
  · exact mul_forms_modEq a b _ _
  · exact (hform a).trans_le (Nat.le_mul_of_pos_right _ (Nat.two_pow_pos _))
  · exact Nat.mod_modEq _ _

end Sys2Proof
end

section
/-! The arithmetic routines of the primality commands: powers of two taken out of a number (42_primality.md R151), the Jacobi symbol
(43_jacobi.md R182) and the perfect-square predicate (R186), each against the mathematics the rule names. -/

namespace Sys2Proof.Machine

open scoped NumberTheorySymbols

/-! ### Powers of two taken out of a number -/

/-- Halving while even keeps the product of the power of two and the rest. -/
theorem splitTwosLoop_mul (k a : Nat) : 2 ^ (splitTwosLoop k a).1 * (splitTwosLoop k a).2 = a := by
  induction k generalizing a with
  | zero => rw [splitTwosLoop, pow_zero, one_mul]
  | succ k ih =>
    rw [splitTwosLoop]
    split
    · rw [pow_succ', mul_assoc, ih]
      omega
    · rw [pow_zero, one_mul]

/-- A positive number of at most `k` bits is odd after `k` halvings at the latest. -/
theorem splitTwosLoop_odd {k a : Nat} (ha : 0 < a) (hk : a < 2 ^ k) : (splitTwosLoop k a).2 % 2 = 1 := by
  induction k generalizing a with
  | zero => rw [pow_zero] at hk; omega
  | succ k ih =>
    rw [splitTwosLoop]
    split
    · exact ih (by omega) (by omega)
    · omega

/-- `a = 2^e * a1` (R151). -/
theorem splitTwos_mul (a : Nat) : 2 ^ (splitTwos a).1 * (splitTwos a).2 = a :=
  splitTwosLoop_mul _ a

/-- `a1` is odd (R151). -/
theorem splitTwos_odd {a : Nat} (ha : 0 < a) : (splitTwos a).2 % 2 = 1 :=
  splitTwosLoop_odd ha (lt_two_pow_bitlen a)

/-- `a1` is at most `a`. -/
theorem splitTwos_le (a : Nat) : (splitTwos a).2 ≤ a :=
  calc (splitTwos a).2 ≤ 2 ^ (splitTwos a).1 * (splitTwos a).2 := Nat.le_mul_of_pos_left _ (Nat.two_pow_pos _)
    _ = a := splitTwos_mul a

/-! ### The Jacobi symbol -/

/-- The symbol of `2^e` over an odd `n`, from the parity of `e` and from `n mod 8` (R182). -/
theorem jacobiSym_two_pow (e : Nat) {n : Nat} (hn : n % 2 = 1) :
    J((2 ^ e : Nat) | n) = if e % 2 = 0 then 1 else if n % 8 = 1 ∨ n % 8 = 7 then 1 else -1 := by
  rw [Nat.cast_pow, Nat.cast_two, jacobiSym.pow_left, jacobiSym.at_two (Nat.odd_iff.mpr hn), ZMod.χ₈_nat_eq_if_mod_eight,
    if_neg (by omega)]
  obtain heven | hodd := Nat.mod_two_eq_zero_or_one e
  · rw [if_pos heven]
    split <;> simp [(Nat.even_iff.mpr heven).neg_one_pow]
  · rw [if_neg (show ¬e % 2 = 0 by omega)]
    split <;> simp [(Nat.odd_iff.mpr hodd).neg_one_pow]

/-- One step of R182: the symbol of `2^e` times quadratic reciprocity for the odd part. -/
theorem jacobiSign_mul {a n : Nat} (e : Nat) (ha : a % 2 = 1) (hn : n % 2 = 1) :
    jacobiSign e a n * J((n % a : Nat) | a) = J((2 ^ e * a : Nat) | n) := by
  rw [Nat.cast_mul, jacobiSym.mul_left, jacobiSym_two_pow e hn, ← jacobiSym.quadratic_reciprocity_if ha hn, Int.natCast_mod,
    ← jacobiSym.mod_left, jacobiSign]
  simp only [and_comm (a := n % 4 = 3)]
  split
  · rw [neg_mul_comm]
  · rfl

/-- `Jacobi(a, n)` with `k` calls allowed is the Jacobi symbol for odd `n` up to `k` (R182). -/
theorem jacobiLoop_eq {k n : Nat} (a : Nat) (hn : n % 2 = 1) (hk : n ≤ k) : jacobiLoop k a n = J(a | n) := by
  induction k generalizing a n with
  | zero => omega
  | succ k ih =>
    have hlt : a % n < n := Nat.mod_lt a (by omega)
    rw [jacobiLoop, jacobiSym.mod_left, ← Int.natCast_mod]
    generalize a % n = r at hlt
    dsimp only
    split_ifs with hone hzero
    · rcases hone with rfl | rfl
      · rw [Nat.cast_one, jacobiSym.one_left]
      · rw [jacobiSym.one_right]
    · rw [hzero, Nat.cast_zero, jacobiSym.zero_left (by omega)]
    · have hodd := splitTwos_odd (Nat.pos_of_ne_zero hzero)
      have hle := splitTwos_le r
      rw [ih _ hodd (by omega), jacobiSign_mul _ hodd hn, splitTwos_mul]

/-- `Jacobi(a, n)` is the Jacobi symbol, the product of Legendre symbols, for odd `n` (R182). -/
theorem jacobi_eq_jacobiSym (a : Int) {n : Nat} (hn : n % 2 = 1) : jacobi a n = J(a | n) := by
  rw [jacobi, jacobiLoop_eq _ hn le_rfl, Int.toNat_of_nonneg (Int.emod_nonneg a (by omega)), ← jacobiSym.mod_left]

/-! ### The perfect-square predicate -/

/-- The root's bits: from a root `r` so far with `i` bits to come the loop ends at the integer square root. -/
theorem isqrtLoop_eq {n i r : Nat} (hle : r * r ≤ n) (hlt : n < (r + 2 ^ i) * (r + 2 ^ i)) : isqrtLoop n i r = Nat.sqrt n := by
  induction i generalizing r with
  | zero => exact Nat.eq_sqrt.mpr ⟨hle, hlt⟩
  | succ i ih =>
    rw [isqrtLoop]
    split
    · next hbit => exact ih hbit (by rwa [pow_succ, mul_two, ← add_assoc] at hlt)
    · next hbit => exact ih hle (Nat.lt_of_not_le hbit)

/-- The root of a number has at most half its bits, rounded up. -/
theorem isqrt_eq_sqrt (n : Nat) : isqrt n = Nat.sqrt n := by
  refine isqrtLoop_eq (Nat.zero_le n) ?_
  rw [zero_add, ← pow_add]
  exact (lt_two_pow_bitlen n).trans_le (Nat.pow_le_pow_right two_pos (by omega))

/-- `IsSquare(n)` is the predicate (R186). -/
theorem isSquare_iff (n : Nat) : isSquare n = true ↔ ∃ k : Nat, k * k = n := by
  rw [isSquare, beq_iff_eq, isqrt_eq_sqrt, ← Nat.exists_mul_self]

end Sys2Proof.Machine
end

section
/-! MRROUND and MRTEST (42_primality.md): the witness predicate (R151), the shortcuts (R152), the rounds of a test (R155, R232), and
that a prime has no witness (R157). -/

namespace Sys2Proof.Machine

/-! ### The witness predicate -/

/-- A number determines its power of two and its odd part (R151). -/
theorem two_pow_mul_odd_inj {a a' m m' : Nat} (hm : m % 2 = 1) (hm' : m' % 2 = 1) (h : 2 ^ a * m = 2 ^ a' * m') :
    a = a' ∧ m = m' := by
  have hle {i j r t : Nat} (ht : t % 2 = 1) (h : 2 ^ i * r = 2 ^ j * t) : i ≤ j := by
    have hcoprime : Nat.Coprime (2 ^ i) t := .pow_left _ (Nat.coprime_two_left.mpr (Nat.odd_iff.mpr ht))
    exact (Nat.pow_dvd_pow_iff_le_right one_lt_two).mp (hcoprime.dvd_of_dvd_mul_right ⟨r, h.symm⟩)
  obtain rfl : a = a' := le_antisymm (hle hm' h) (hle hm h.symm)
  exact ⟨rfl, Nat.eq_of_mul_eq_mul_left (Nat.two_pow_pos a) h⟩

/-- The witness predicate speaks of one decomposition of `w - 1`, the only one (R151). -/
theorem isWitness_iff {w b a m : Nat} (hm : m % 2 = 1) (h : w - 1 = 2 ^ a * m) :
    IsWitness w b ↔ b ^ m % w ≠ 1 ∧ ∀ i : Nat, i < a → b ^ (2 ^ i * m) % w ≠ w - 1 := by
  refine ⟨fun hw => hw a m hm h, fun hw a' m' hm' h' => ?_⟩
  obtain ⟨rfl, rfl⟩ := two_pow_mul_odd_inj hm hm' (h.symm.trans h')
  exact hw

/-- The squaring loop sees `z`, `z^2`, `z^4`, ... and holds when none of them is `w - 1` modulo `w` (R151). -/
theorem mrLoop_iff (w i x : Nat) : mrLoop w i (x % w) = true ↔ ∀ j : Nat, j < i → x ^ 2 ^ j % w ≠ w - 1 := by
  induction i generalizing x with
  | zero => simp [mrLoop]
  | succ i ih =>
    rw [mrLoop, Nat.forall_lt_succ_left, pow_zero, pow_one]
    split
    · next hz => simp [hz]
    · next hz =>
      rw [← Nat.mul_mod, ih]
      simp only [ne_eq, hz, not_false_eq_true, true_and, ← sq, ← pow_mul, ← pow_succ']

/-- `MrWitness(w, b)` computes the predicate (R151). -/
theorem mrWitness_iff {w : Nat} (b : Nat) (hw : 2 ≤ w) : mrWitness w b = true ↔ IsWitness w b := by
  rw [isWitness_iff (splitTwos_odd (by omega)) (splitTwos_mul (w - 1)).symm, mrWitness, modExp_eq _ _ hw]
  split
  · next hone => simp [hone]
  · next hone =>
    rw [mrLoop_iff]
    simp only [ne_eq, hone, not_false_eq_true, true_and, ← pow_mul, mul_comm]

/-! ### Primes have no witness -/

/-- In a ring without zero divisors a `2^a`-th root of 1 is 1, or -1 after some of the squarings (R157). -/
theorem eq_one_or_pow_eq_neg_one {R : Type*} [CommRing R] [NoZeroDivisors R] {y : R} {a : Nat} (h : y ^ 2 ^ a = 1) :
    y = 1 ∨ ∃ i : Nat, i < a ∧ y ^ 2 ^ i = -1 := by
  induction a with
  | zero => exact .inl (by simpa using h)
  | succ a ih =>
    rw [pow_succ, pow_mul, sq_eq_one_iff] at h
    rcases h with hone | hneg
    · exact (ih hone).imp_right fun ⟨i, hi, hy⟩ => ⟨i, by omega, hy⟩
    · exact .inr ⟨a, by omega, hneg⟩

/-- No number that a prime does not divide is a witness for the prime: Fermat, then square roots of 1 (R157). -/
theorem not_isWitness_of_prime {p b : Nat} (hp : p.Prime) (hb : ¬ p ∣ b) : ¬ IsWitness p b := by
  have := Fact.mk hp
  have hp2 := hp.two_le
  have hfermat : (b : ZMod p) ^ (p - 1) = 1 := ZMod.pow_card_sub_one_eq_one (mt (ZMod.natCast_eq_zero_iff b p).mp hb)
  have hmod {c r : Nat} (hr : r < p) (h : (c : ZMod p) = r) : c % p = r :=
    ((ZMod.natCast_eq_natCast_iff' c r p).mp h).trans (Nat.mod_eq_of_lt hr)
  obtain ⟨a, m, hm, h⟩ := Nat.exists_eq_two_pow_mul_odd (n := p - 1) (by omega)
  rw [isWitness_iff (Nat.odd_iff.mp hm) h]
  rintro ⟨hone, hneg⟩
  rw [h, mul_comm, pow_mul] at hfermat
  rcases eq_one_or_pow_eq_neg_one hfermat with h1 | ⟨i, hi, h1⟩
  · exact hone (hmod (by omega) (by rw [Nat.cast_pow, h1, Nat.cast_one]))
  · refine hneg i hi (hmod (by omega) ?_)
    rw [Nat.cast_pow, mul_comm, pow_mul, h1, Nat.cast_sub (by omega), CharP.cast_eq_zero, Nat.cast_one, zero_sub]

/-- No number in the range of a round's witness shows a prime composite (R157). -/
theorem mrWitness_prime {p b : Nat} (hp : p.Prime) (hb : 2 ≤ b) (hbp : b ≤ p - 2) : mrWitness p b = false := by
  rw [← Bool.not_eq_true, mrWitness_iff b hp.two_le]
  exact not_isWitness_of_prime hp fun hdvd => by
    have := Nat.le_of_dvd (by omega) hdvd
    omega

/-! ### The shortcuts -/

/-- The candidates accepted at once (R152). -/
theorem shortcut_true {w : Nat} (h : w ∈ [2, 3, 5, 7]) : shortcut w = some true :=
  (by decide : ∀ w ∈ [2, 3, 5, 7], shortcut w = some true) w h

/-- The candidates rejected at once (R152). -/
theorem shortcut_false {w : Nat} (h : w ∈ [0, 1, 4, 6, 8, 9]) : shortcut w = some false :=
  (by decide : ∀ w ∈ [0, 1, 4, 6, 8, 9], shortcut w = some false) w h

/-- From 10 on no shortcut applies (R152). -/
theorem shortcut_none {w : Nat} (h : 10 ≤ w) : shortcut w = none := by
  rw [shortcut, if_neg (by omega), if_neg (by omega)]

/-! ### The rounds of a test -/

/-- A raw answer in the range of the draw is the draw (60_exceptions.md R230). -/
theorem drawFrom_of_mem {lo hi raw : Nat} (hlo : lo ≤ raw) (hhi : raw ≤ hi) : drawFrom lo hi raw = raw :=
  if_pos ⟨hlo, hhi⟩

/-- A draw lies in its range, whatever the raw answer (60_exceptions.md R230). -/
theorem drawFrom_mem {lo hi : Nat} (raw : Nat) (h : lo ≤ hi) : lo ≤ drawFrom lo hi raw ∧ drawFrom lo hi raw ≤ hi := by
  rw [drawFrom]
  split
  · assumption
  · have := Nat.mod_lt raw (show 0 < hi - lo + 1 by omega)
    omega

/-- All rounds pass when none of their draws shows the candidate composite (R155). -/
theorem mrRounds_pass {w n : Nat} {src : List Nat} (hn : n ≤ src.length)
    (h : ∀ a ∈ src.take n, mrWitness w (drawFrom 2 (w - 2) a) = false) : mrRounds w n src = .decided true (src.drop n) := by
  induction n generalizing src with
  | zero => rfl
  | succ n ih =>
    cases src with
    | nil => simp at hn
    | cons a src =>
      rw [List.take_succ_cons, List.forall_mem_cons] at h
      rw [mrRounds, h.1, if_neg Bool.false_ne_true, List.drop_succ_cons]
      exact ih (Nat.le_of_succ_le_succ hn) h.2

/-- The rounds end with the first draw that shows the candidate composite (R155). -/
theorem mrRounds_reject {w n k b : Nat} {src : List Nat} (hk : k < n) (hb : src[k]? = some b)
    (h : ∀ a ∈ src.take k, mrWitness w (drawFrom 2 (w - 2) a) = false) (hw : mrWitness w (drawFrom 2 (w - 2) b) = true) :
    mrRounds w n src = .decided false (src.drop (k + 1)) := by
  induction k generalizing n src with
  | zero =>
    obtain ⟨n, rfl⟩ := Nat.exists_eq_add_of_lt hk
    cases src with
    | nil => simp at hb
    | cons a src =>
      obtain rfl : a = b := by simpa using hb
      rw [mrRounds, if_pos hw, List.drop_succ_cons, List.drop_zero]
  | succ k ih =>
    cases n with
    | zero => omega
    | succ n =>
      cases src with
      | nil => simp at hb
      | cons a src =>
        rw [List.take_succ_cons, List.forall_mem_cons] at h
        rw [mrRounds, h.1, if_neg Bool.false_ne_true, List.drop_succ_cons]
        exact ih (Nat.lt_of_succ_lt_succ hk) (by simpa using hb) h.2

/-! ### MRROUND and MRTEST -/

section
variable {s : State} {rs1 rs2 : Reg} {imm12 : BitVec 12}

/-- MRROUND below 10 is the shortcut, whatever the witness (R150, R152). -/
theorem exec_mrround_shortcut {t : Bool} (h : shortcut (s.x rs1) = some t) :
    exec (.mrround rs1 rs2) s = .next { s with v := t, busy := false, done := true } := by
  rw [exec, execMrround, mrroundRule, h]
  rfl

/-- MRROUND from 10 on with a witness out of range faults (R150). -/
theorem exec_mrround_fault (h : 10 ≤ s.x rs1) (hb : s.x rs2 < 2 ∨ s.x rs1 - 2 < s.x rs2) :
    exec (.mrround rs1 rs2) s = .next (s.raiseFault .operandRange) := by
  rw [exec, execMrround, mrroundRule, shortcut_none h]
  dsimp only
  rw [if_pos hb, State.finish_error]

/-- MRROUND from 10 on with a legal witness does the round (R150). -/
theorem exec_mrround (h : 10 ≤ s.x rs1) (hlo : 2 ≤ s.x rs2) (hhi : s.x rs2 ≤ s.x rs1 - 2) :
    exec (.mrround rs1 rs2) s
      = .next { s with v := !mrWitness (s.x rs1) (s.x rs2), busy := false, done := true } := by
  rw [exec, execMrround, mrroundRule, shortcut_none h]
  dsimp only
  rw [if_neg (by omega)]
  rfl

/-- MRTEST below 10 is the shortcut and makes no draw (R155, R152). -/
theorem exec_mrtest_shortcut {t : Bool} (h : shortcut (s.x rs1) = some t) :
    exec (.mrtest rs1 imm12) s = .next { s with v := t, busy := false, done := true } := by
  rw [exec, execMrtest, mrtestStep, h]
  rfl

/-- MRTEST from 10 on completes with the verdict of its rounds and leaves the answers they have not used (R155, R232). -/
theorem exec_mrtest_decided {t : Bool} {rest : List Nat} (h : 10 ≤ s.x rs1)
    (hr : mrRounds (s.x rs1) (imm12.toNat - s.mrPassed) s.source = .decided t rest) :
    exec (.mrtest rs1 imm12) s = .next { s with v := t, busy := false, done := true, source := rest } := by
  rw [exec, execMrtest, mrtestStep, shortcut_none h, roundsOf]
  simp only [hr]
  rfl

end

/-- An answer in the range that is no witness shows nothing in its round. -/
theorem mrWitness_draw_false {w : Nat} {src : List Nat} (hw : 10 ≤ w)
    (h : ∀ a ∈ src, 2 ≤ a ∧ a ≤ w - 2 ∧ ¬ IsWitness w a) : ∀ a ∈ src, mrWitness w (drawFrom 2 (w - 2) a) = false := by
  intro a ha
  obtain ⟨hlo, hhi, hno⟩ := h a ha
  rw [drawFrom_of_mem hlo hhi, ← Bool.not_eq_true, mrWitness_iff a (by omega)]
  exact hno

end Sys2Proof.Machine

namespace Sys2Proof

open Sys2Proof.Machine

/-- Settles O20, by the command's cases. -/
theorem mrroundOutcome : Obligations.MrroundOutcome := by
  intro s rs1 rs2
  refine ⟨fun h => exec_mrround_shortcut (shortcut_true h), fun h => exec_mrround_shortcut (shortcut_false h),
    exec_mrround_fault, fun h hlo hhi => ⟨_, ?_, exec_mrround h hlo hhi⟩⟩
  rw [← mrWitness_iff _ (by omega), Bool.not_eq_true', Bool.not_eq_true]

/-- Settles O21: the shortcuts, then the rounds, which all pass or end at the first witness. -/
theorem mrtestOutcome : Obligations.MrtestOutcome := by
  rintro s rs1 imm12 n rfl
  refine ⟨fun h => exec_mrtest_shortcut (shortcut_true h), fun h => exec_mrtest_shortcut (shortcut_false h),
    fun h hn hpass => ?_, fun h k b hk hb hlo hhi hw hpass => ?_⟩
  · exact exec_mrtest_decided h (mrRounds_pass hn (mrWitness_draw_false h hpass))
  · refine exec_mrtest_decided h (mrRounds_reject hk hb (mrWitness_draw_false h hpass) ?_)
    rwa [drawFrom_of_mem hlo hhi, mrWitness_iff b (by omega)]

/-- Settles O23: no witness in the range shows a prime composite, and a draw lies in the range. -/
theorem primesPassMillerRabin : Obligations.PrimesPassMillerRabin := by
  refine fun s rs1 hp h => ⟨fun rs2 hlo hhi => ?_, fun imm12 hn => ?_⟩
  · rw [exec_mrround h hlo hhi, mrWitness_prime hp hlo hhi, Bool.not_false]
  · refine exec_mrtest_decided h (mrRounds_pass hn fun a _ => ?_)
    obtain ⟨hlo, hhi⟩ := drawFrom_mem a (show 2 ≤ s.x rs1 - 2 by omega)
    exact mrWitness_prime hp hlo hhi

end Sys2Proof
end

section
/-! LUCAS (42_primality.md): the doubling recurrence (R165), the discriminant search (R163, R164), the test (R160, R161), what the
literal first discriminant accepts (R167), and that the verifiers raise no fault (60_exceptions.md R211). -/

namespace Sys2Proof.Machine

open scoped NumberTheorySymbols

/-! ### The Lucas sequence -/

/-- The companion `V_k = 2 * U_{k+1} - U_k` of the Lucas sequence with `P = 1` (R165). -/
def lucasCompanion (q : Int) (k : Nat) : Int :=
  2 * lucasSeq q (k + 1) - lucasSeq q k

/-- The linear recurrence (R165). -/
theorem lucasSeq_add_two (q : Int) (k : Nat) : lucasSeq q (k + 2) = lucasSeq q (k + 1) - q * lucasSeq q k := by
  rw [lucasSeq]

/-- The companion one index on: `2 * V_{k+1} = V_k + D * U_k`. -/
theorem two_mul_lucasCompanion_succ (q : Int) (k : Nat) :
    2 * lucasCompanion q (k + 1) = lucasCompanion q k + (1 - 4 * q) * lucasSeq q k := by
  rw [lucasCompanion, lucasCompanion, lucasSeq_add_two]
  ring

/-- The sequence one index on: `2 * U_{k+1} = U_k + V_k`. -/
theorem two_mul_lucasSeq_succ (q : Int) (k : Nat) : 2 * lucasSeq q (k + 1) = lucasSeq q k + lucasCompanion q k := by
  rw [lucasCompanion]
  ring

/-- Doubling the index, in terms of the sequence alone. -/
theorem lucasSeq_double (q : Int) (k : Nat) :
    lucasSeq q (2 * k) = lucasSeq q k * (2 * lucasSeq q (k + 1) - lucasSeq q k) ∧
      lucasSeq q (2 * k + 1) = lucasSeq q (k + 1) ^ 2 - q * lucasSeq q k ^ 2 := by
  induction k with
  | zero => simp [lucasSeq]
  | succ k ih =>
    obtain ⟨heven, hodd⟩ := ih
    have heven' : lucasSeq q (2 * (k + 1)) = lucasSeq q (k + 1) * (2 * lucasSeq q (k + 2) - lucasSeq q (k + 1)) := by
      rw [show 2 * (k + 1) = 2 * k + 2 by ring, lucasSeq_add_two, heven, hodd, lucasSeq_add_two]
      ring
    refine ⟨heven', ?_⟩
    rw [show 2 * (k + 1) + 1 = 2 * k + 1 + 2 by ring, lucasSeq_add_two, show 2 * k + 1 + 1 = 2 * (k + 1) by ring, heven', hodd,
      lucasSeq_add_two]
    ring

/-- `U_{2k} = U_k * V_k` (R165). -/
theorem lucasSeq_two_mul (q : Int) (k : Nat) : lucasSeq q (2 * k) = lucasSeq q k * lucasCompanion q k :=
  (lucasSeq_double q k).1

/-- `2 * V_{2k} = V_k^2 + D * U_k^2` (R165). -/
theorem two_mul_lucasCompanion_two_mul (q : Int) (k : Nat) :
    2 * lucasCompanion q (2 * k) = lucasCompanion q k * lucasCompanion q k + (1 - 4 * q) * lucasSeq q k * lucasSeq q k := by
  obtain ⟨heven, hodd⟩ := lucasSeq_double q k
  rw [lucasCompanion, lucasCompanion, heven, hodd]
  ring

/-! ### The doubling recurrence -/

/-- Multiplying by `(n + 1) / 2` halves modulo an odd `n` (R165). -/
theorem mul_half_modEq {n : Nat} (hn : n % 2 = 1) {a b : Int} (h : a ≡ 2 * b [ZMOD n]) :
    a * ((n + 1) / 2 : Nat) ≡ b [ZMOD n] := by
  have hhalf : 2 * (((n + 1) / 2 : Nat) : Int) = n + 1 := by omega
  calc a * ((n + 1) / 2 : Nat)
      ≡ 2 * b * ((n + 1) / 2 : Nat) [ZMOD n] := h.mul_right _
    _ = b + n * b := by rw [mul_right_comm, hhalf]; ring
    _ ≡ b [ZMOD n] := Int.modEq_add_fac_self

section
variable {n : Nat} {q u v : Int} {k : Nat} (hu : u ≡ lucasSeq q k [ZMOD n]) (hv : v ≡ lucasCompanion q k [ZMOD n])
include hu hv

/-- The products of the loop's first line double the index (R165). -/
theorem lucasLoop_double_modEq (hn : n % 2 = 1) :
    u * v % n ≡ lucasSeq q (2 * k) [ZMOD n] ∧
      (v * v + (1 - 4 * q) * u * u) * ((n + 1) / 2 : Nat) % n ≡ lucasCompanion q (2 * k) [ZMOD n] := by
  refine ⟨(Int.mod_modEq _ _).trans ?_, (Int.mod_modEq _ _).trans (mul_half_modEq hn ?_)⟩
  · rw [lucasSeq_two_mul]
    exact hu.mul hv
  · rw [two_mul_lucasCompanion_two_mul]
    exact (hv.mul hv).add ((hu.mul_left _).mul hu)

/-- The sums of the loop's set bit move the index on by one (R165). -/
theorem lucasLoop_succ_modEq (hn : n % 2 = 1) :
    (u + v) * ((n + 1) / 2 : Nat) % n ≡ lucasSeq q (k + 1) [ZMOD n] ∧
      (v + (1 - 4 * q) * u) * ((n + 1) / 2 : Nat) % n ≡ lucasCompanion q (k + 1) [ZMOD n] := by
  refine ⟨(Int.mod_modEq _ _).trans (mul_half_modEq hn ?_), (Int.mod_modEq _ _).trans (mul_half_modEq hn ?_)⟩
  · rw [two_mul_lucasSeq_succ]
    exact hu.add hv
  · rw [two_mul_lucasCompanion_succ]
    exact hv.add (hu.mul_left _)

end

/-- The invariant of the loop: with `i` bits of `n + 1` left the pair is `(U_k, V_k)` modulo `n`, `k` being the bits used (R165). -/
theorem lucasLoop_modEq {n : Nat} (hn : n % 2 = 1) {q u v : Int} (i : Nat)
    (hu : u ≡ lucasSeq q ((n + 1) / 2 ^ i) [ZMOD n]) (hv : v ≡ lucasCompanion q ((n + 1) / 2 ^ i) [ZMOD n]) :
    lucasLoop n (1 - 4 * q) ((n + 1) / 2 : Nat) i u v ≡ lucasSeq q (n + 1) [ZMOD n] := by
  induction i generalizing u v with
  | zero => simpa [lucasLoop] using hu
  | succ i ih =>
    have hk : (n + 1) / 2 ^ (i + 1) = (n + 1) / 2 ^ i / 2 := by rw [pow_succ, Nat.div_div_eq_div_mul]
    rw [hk] at hu hv
    obtain ⟨hut, hvt⟩ := lucasLoop_double_modEq hu hv hn
    simp only [lucasLoop, Nat.testBit_eq_decide_div_mod_eq, decide_eq_true_eq]
    split
    · next hbit =>
      obtain ⟨hus, hvs⟩ := lucasLoop_succ_modEq hut hvt hn
      rw [show 2 * ((n + 1) / 2 ^ i / 2) + 1 = (n + 1) / 2 ^ i by omega] at hus hvs
      exact ih hus hvs
    · next hbit =>
      rw [show 2 * ((n + 1) / 2 ^ i / 2) = (n + 1) / 2 ^ i by omega] at hut hvt
      exact ih hut hvt

/-- A loop with a bit left ends with a residue (R165). -/
theorem lucasLoop_mod (n : Nat) (d inv2 u v : Int) (i : Nat) :
    lucasLoop n d inv2 (i + 1) u v % n = lucasLoop n d inv2 (i + 1) u v := by
  induction i generalizing u v with
  | zero =>
    simp only [lucasLoop]
    split <;> exact Int.emod_emod_of_dvd _ dvd_rfl
  | succ i ih =>
    rw [lucasLoop]
    split <;> exact ih _ _

/-- The leading bit of a positive number is 1. -/
theorem div_two_pow_bitlen_sub_one {v : Nat} (hv : v ≠ 0) : v / 2 ^ (bitlen v - 1) = 1 := by
  rw [bitlen, if_neg hv, Nat.add_sub_cancel]
  exact Nat.div_eq_of_lt_le (by simpa using Nat.log2_self_le hv) (by simpa [pow_succ'] using Nat.lt_log2_self (n := v))

/-- `LucasU(n, D)` is `U_{n+1} mod n` for `D = 1 - 4 * Q` (R165). -/
theorem lucasU_eq {n : Nat} (q : Int) (h : 1 ≤ n) (hn : n % 2 = 1) : lucasU n (1 - 4 * q) = lucasSeq q (n + 1) % n := by
  have hlead := div_two_pow_bitlen_sub_one (v := n + 1) (by omega)
  obtain ⟨i, hi⟩ : ∃ i, bitlen (n + 1) - 1 = i + 1 := by
    refine Nat.exists_eq_succ_of_ne_zero fun hzero => ?_
    rw [hzero, pow_zero, Nat.div_one] at hlead
    omega
  rw [lucasU, hi, ← lucasLoop_mod]
  rw [hi] at hlead
  refine lucasLoop_modEq hn (i + 1) ?_ ?_ <;> rw [hlead]
  · rfl
  · simp [lucasCompanion, lucasSeq]

/-! ### The trial discriminants -/

/-- The first trial discriminant is the parameter's (R163). -/
theorem trialD_zero (f : Config.LucasFirst) : trialD f 0 = Config.lucasD f := by
  cases f <;> decide

/-- The first magnitude is 3 or 5 (R163). -/
theorem natAbs_lucasD (f : Config.LucasFirst) : (Config.lucasD f).natAbs = 3 ∨ (Config.lucasD f).natAbs = 5 := by
  cases f <;> decide

/-- The magnitudes of the trials are the odd numbers from the first one's on (R164). -/
theorem natAbs_trialD (f : Config.LucasFirst) (k : Nat) : (trialD f k).natAbs = 2 * k + (Config.lucasD f).natAbs := by
  cases f <;> rw [trialD, Int.natAbs_mul, Int.natAbs_pow, Int.natAbs_neg, Int.natAbs_one, one_pow, one_mul] <;>
    simp only [Config.lucasD] <;> omega

/-- `NextD` leads from a trial to the next (R163). -/
theorem nextD_trialD (f : Config.LucasFirst) (k : Nat) : nextD (trialD f k) = trialD f (k + 1) := by
  rw [nextD]
  obtain heven | hodd := k.even_or_odd
  · cases f <;> simp only [trialD, pow_succ, heven.neg_one_pow] <;> omega
  · cases f <;> simp only [trialD, pow_succ, hodd.neg_one_pow] <;> omega

/-- Every trial is congruent to 1 modulo 4 (R163). -/
theorem trialD_emod_four (f : Config.LucasFirst) (k : Nat) : trialD f k % 4 = 1 := by
  obtain heven | hodd := k.even_or_odd
  · have := Nat.even_iff.mp heven
    cases f <;> simp only [trialD, pow_succ, heven.neg_one_pow] <;> omega
  · have := Nat.odd_iff.mp hodd
    cases f <;> simp only [trialD, pow_succ, hodd.neg_one_pow] <;> omega

/-! ### The discriminant search -/

section
variable {f : Config.LucasFirst} {n k : Nat}

/-- A trial whose magnitude shares a prime with `n` has the symbol 0 (R164). -/
theorem jacobiSym_eq_zero_of_dvd {d : Int} {p : Nat} (hn : n ≠ 0) (hp : p.Prime) (hd : p ∣ d.natAbs) (hpn : p ∣ n) :
    J(d | n) = 0 :=
  jacobiSym.eq_zero_iff.mpr ⟨hn, fun h => hp.one_lt.ne' (Nat.dvd_one.mp (h ▸ Nat.dvd_gcd hd hpn))⟩

/-- The gcd condition passes no trial over: a common prime of `n` and `(1 - D_k) / 4` divides an earlier trial, whose symbol is then
not 1 (R164). -/
theorem gcd_trialD_eq_one (hn : n % 2 = 1) (h : ∀ j : Nat, j < k → J(trialD f j | n) = 1) :
    Nat.gcd n ((1 - trialD f k) / 4).natAbs = 1 := by
  by_contra hgcd
  obtain ⟨p, hp, hdvd⟩ := Nat.exists_prime_and_dvd hgcd
  obtain ⟨hpn, hpq⟩ := Nat.dvd_gcd_iff.mp hdvd
  have hpodd : p % 2 = 1 := Nat.odd_iff.mp (Odd.of_dvd_nat (Nat.odd_iff.mpr hn) hpn)
  have hp2 := hp.two_le
  have habs := natAbs_trialD f k
  have hmod := trialD_emod_four f k
  have hfirst := natAbs_lucasD f
  have hle : p ≤ ((1 - trialD f k) / 4).natAbs := Nat.le_of_dvd (by omega) hpq
  obtain ⟨j, hj, hpj⟩ : ∃ j : Nat, j < k ∧ p ∣ (trialD f j).natAbs := by
    by_cases hlow : p < (Config.lucasD f).natAbs
    · obtain rfl : p = 3 := by omega
      refine ⟨2, by omega, ?_⟩
      rw [natAbs_trialD, show (Config.lucasD f).natAbs = 5 by omega]
      decide
    · refine ⟨(p - (Config.lucasD f).natAbs) / 2, by omega, ?_⟩
      rw [natAbs_trialD]
      exact dvd_of_eq (by omega)
  have hone := h j hj
  rw [jacobiSym_eq_zero_of_dvd (by omega) hp hpj hpn] at hone
  exact absurd hone (by decide)

/-- A trial with symbol 1 does not end the search (R163). -/
theorem not_endsSearch_of_eq_one {d : Int} (h : J(d | n) = 1) : ¬ EndsSearch d n := by
  rw [EndsSearch, h]
  exact fun hend => hend.elim one_ne_zero fun hneg => absurd hneg.1 (by decide)

/-- The trial of magnitude `n` has the symbol 0 (R164). -/
theorem jacobiSym_trialD_of_magnitude (hn : 1 < n) (h : 2 * k + (Config.lucasD f).natAbs = n) : J(trialD f k | n) = 0 := by
  obtain ⟨p, hp, hpn⟩ := Nat.exists_prime_and_dvd hn.ne'
  exact jacobiSym_eq_zero_of_dvd (by omega) hp (by rwa [natAbs_trialD, h]) hpn

/-- There is a first trial whose symbol is not 1, before the trial of magnitude `n` or at it (R164). -/
theorem exists_first_trial (f : Config.LucasFirst) (h : 11 ≤ n) (hn : n % 2 = 1) :
    ∃ k : Nat, k < (n - 1) / 2 ∧ (∀ j : Nat, j < k → J(trialD f j | n) = 1) ∧ J(trialD f k | n) ≠ 1 := by
  have hlast : J(trialD f ((n - (Config.lucasD f).natAbs) / 2) | n) ≠ 1 := by
    rw [jacobiSym_trialD_of_magnitude (by omega) (by have := natAbs_lucasD f; omega)]
    exact zero_ne_one
  have hex : ∃ k : Nat, J(trialD f k | n) ≠ 1 := ⟨_, hlast⟩
  refine ⟨Nat.find hex, ?_, fun j hj => not_not.mp (Nat.find_min hex hj), Nat.find_spec hex⟩
  have hle := Nat.find_min' hex hlast
  have := natAbs_lucasD f
  omega

/-- The search goes on past the trials with symbol 1 (R163). -/
theorem lucasSearch_skip (hn : n % 2 = 1) (m : Nat) (h : ∀ j : Nat, j < k → J(trialD f j | n) = 1) :
    lucasSearch n (m + k) (Config.lucasD f) = lucasSearch n m (trialD f k) := by
  induction k generalizing m with
  | zero => rw [trialD_zero, Nat.add_zero]
  | succ k ih =>
    rw [show m + (k + 1) = m + 1 + k by omega, ih (m + 1) fun j hj => h j (by omega), lucasSearch,
      jacobi_eq_jacobiSym _ hn, h k (by omega), nextD_trialD]
    rfl

/-- A trial with symbol 0 rejects (R163). -/
theorem lucasSearch_rejected {d : Int} (hn : n % 2 = 1) (m : Nat) (h : J(d | n) = 0) : lucasSearch n (m + 1) d = .rejected := by
  rw [lucasSearch, jacobi_eq_jacobiSym d hn, h]
  rfl

/-- A trial with symbol -1 that meets the gcd condition ends the search (R163). -/
theorem lucasSearch_found {d : Int} (hn : n % 2 = 1) (m : Nat) (h : J(d | n) = -1) (hgcd : Nat.gcd n ((1 - d) / 4).natAbs = 1) :
    lucasSearch n (m + 1) d = .found d := by
  rw [lucasSearch, jacobi_eq_jacobiSym d hn, h, gcdOf, hgcd]
  rfl

end

/-! ### LUCAS -/

section
variable {d₀ : Int} {n : Nat}

/-- The Lucas test on a shortcut value (R161). -/
theorem lucasTest_shortcut {t : Bool} (h : shortcut n = some t) : lucasTest d₀ n = t := by
  rw [lucasTest, h]

/-- The Lucas test rejects even numbers and perfect squares (R160). -/
theorem lucasTest_even_or_square (h : 10 ≤ n) (hn : n % 2 = 0 ∨ ∃ k : Nat, k * k = n) : lucasTest d₀ n = false := by
  rw [← isSquare_iff] at hn
  rw [lucasTest, shortcut_none h]
  dsimp only
  split_ifs with heven hsquare
  · rfl
  · rfl
  · exact absurd hn (not_or.mpr ⟨heven, hsquare⟩)

/-- The Lucas test accepts an odd number that is no square exactly when its search finds a discriminant with `LucasU` 0 (R160). -/
theorem lucasTest_iff (h : 10 ≤ n) (hn : n % 2 = 1) (hsquare : ¬ ∃ k : Nat, k * k = n) :
    lucasTest d₀ n = true ↔ ∃ d : Int, lucasSearch n ((n - 1) / 2) d₀ = .found d ∧ lucasU n d = 0 := by
  rw [← isSquare_iff] at hsquare
  rw [lucasTest, shortcut_none h]
  dsimp only
  rw [if_neg (by omega), if_neg hsquare]
  cases lucasSearch n ((n - 1) / 2) d₀ <;> simp

end

/-- LUCAS completes with the test's verdict (R160). -/
theorem exec_lucas (s : State) (rs1 : Reg) :
    exec (.lucas rs1) s
      = .next { s with v := lucasTest (Config.lucasD s.lucasFirst) (s.x rs1), busy := false, done := true } :=
  rfl

/-! ### The literal first discriminant -/

/-- With `Q = 1` the sequence has the period 6, every third term being 0 (R167). -/
theorem lucasSeq_one_three_mul (k : Nat) : lucasSeq 1 (3 * k) = 0 := by
  induction k with
  | zero => rfl
  | succ k ih =>
    rw [Nat.mul_succ, lucasSeq_add_two, lucasSeq_add_two, ih]
    ring

/-- `Jacobi(-3, n) = -1` for odd `n` with `n mod 3 = 2` (R167). -/
theorem jacobiSym_neg_three {n : Nat} (hn : n % 2 = 1) (h : n % 3 = 2) : J(-3 | n) = -1 := by
  have hthree : J(n | 3) = -1 := by
    rw [jacobiSym.mod_left, show ((n : Int) % (3 : Nat)) = 2 by omega]
    norm_num
  have hrec := jacobiSym.quadratic_reciprocity_if (a := 3) (b := n) (by decide) hn
  rw [hthree] at hrec
  rw [jacobiSym.neg _ (Nat.odd_iff.mpr hn), ZMod.χ₄_nat_eq_if_mod_four, if_neg (by omega)]
  rw [Nat.cast_ofNat] at hrec
  rw [← hrec]
  split_ifs <;> omega

end Sys2Proof.Machine

namespace Sys2Proof

open Sys2Proof.Machine

/-- Settles O25, by the test's shortcuts and its first two checks. -/
theorem lucasShortcutsEvenAndSquares : Obligations.LucasShortcutsEvenAndSquares := by
  intro s rs1
  rw [exec_lucas]
  refine ⟨fun h => ?_, fun h => ?_, fun h hn => ?_⟩
  · rw [lucasTest_shortcut (shortcut_true h)]
  · rw [lucasTest_shortcut (shortcut_false h)]
  · rw [lucasTest_even_or_square h hn]

/-- Settles O27: the search skips the trials with symbol 1 and ends at the next, where the gcd condition holds. -/
theorem lucasSearchEnds : Obligations.LucasSearchEnds := by
  intro f n h hn
  obtain ⟨k, hk, hone, hne⟩ := exists_first_trial f h hn
  obtain ⟨m, hm⟩ : ∃ m, (n - 1) / 2 = m + 1 + k := ⟨(n - 1) / 2 - 1 - k, by omega⟩
  refine ⟨k, hk, hone, ?_⟩
  rw [hm, lucasSearch_skip hn (m + 1) hone]
  rcases jacobiSym.trichotomy (trialD f k) n with hj | hj | hj
  · exact .inl ⟨hj, lucasSearch_rejected hn m hj⟩
  · exact absurd hj hne
  · have hgcd := gcd_trialD_eq_one hn hone
    exact .inr ⟨hj, hgcd, lucasSearch_found hn m hj hgcd⟩

/-- Settles O28: `D = 1 - 4 * Q`. -/
theorem lucasUIsTheSequence : Obligations.LucasUIsTheSequence := by
  intro n d h hn hd
  rw [← lucasU_eq _ (by omega) hn, show 1 - 4 * ((1 - d) / 4) = d by omega]

/-- Settles O26: the first trial that ends the search is where `lucasSearchEnds` says the search ends. -/
theorem lucasOutcome : Obligations.LucasOutcome := by
  rintro s rs1 k d h hn hsquare rfl hend hfirst
  obtain ⟨k', -, hone, hk'⟩ := lucasSearchEnds s.lucasFirst (s.x rs1) h hn
  have hend' : EndsSearch (trialD s.lucasFirst k') (s.x rs1) := hk'.imp (·.1) fun hfound => ⟨hfound.1, hfound.2.1⟩
  obtain rfl : k = k' := le_antisymm (le_of_not_gt fun hlt => hfirst k' hlt hend')
    (le_of_not_gt fun hlt => not_endsSearch_of_eq_one (hone k hlt) hend)
  refine ⟨_, exec_lucas s rs1, ?_⟩
  rw [lucasTest_iff (by omega) hn hsquare]
  rcases hk' with ⟨hj, hr⟩ | ⟨hj, -, hr⟩
  · simp [hr, hj]
  · simp [hr, hj, lucasUIsTheSequence _ _ h hn (trialD_emod_four s.lucasFirst k)]

/-- Settles O29: the search ends at once, with `Q = 1`. -/
theorem literalDiscriminantAcceptsTwoModThree : Obligations.LiteralDiscriminantAcceptsTwoModThree := by
  intro s rs1 hf h hn hsquare hmod
  have hj := jacobiSym_neg_three hn hmod
  obtain ⟨b, hexec, hb⟩ := lucasOutcome s rs1 0 (-3) h hn hsquare (by rw [hf]; rfl) (.inr ⟨hj, by simp⟩) (by simp)
  obtain ⟨i, hi⟩ : ∃ i, s.x rs1 + 1 = 3 * i := ⟨(s.x rs1 + 1) / 3, by omega⟩
  have hzero : lucasSeq ((1 - -3) / 4) (s.x rs1 + 1) = 0 := by rw [hi]; exact lucasSeq_one_three_mul i
  rw [hexec, hb.mpr ⟨hj, by rw [hzero, Int.zero_emod]⟩]

/-- Settles O35: MRTEST completes or stays in execution, LUCAS and ISSQR complete; none of it touches the fault latch. -/
theorem verifiersNeverFault : Obligations.VerifiersNeverFault := by
  refine fun s t rs1 imm12 => ⟨fun h => ?_, fun h => ?_, fun h => ?_⟩ <;> obtain rfl := Host.Outcome.next.inj h
  · rcases mrtestStep_cases (s.x rs1) (roundsOf imm12) s with ⟨v, k, hstep⟩ | hstep <;> rw [hstep] <;> exact ⟨rfl, rfl, rfl⟩
  · exact ⟨rfl, rfl, rfl⟩
  · exact ⟨rfl, rfl, rfl⟩

end Sys2Proof
end

section
/-! JACOBI and ISSQR (43_jacobi.md): the cases of R183 and R187, the closing laws of R182, and the greatest common divisor (R181). -/

namespace Sys2Proof.Machine

open scoped NumberTheorySymbols

section
variable {s : State} (rs1 : Reg) {rs3 : Reg} (sa : Bool)

/-- JACOBI with an even modulus faults (R183). -/
theorem exec_jacobi_fault (hn : s.x rs3 % 2 = 0) : exec (.jacobi rs1 rs3 sa) s = .next (s.raiseFault .operandRange) := by
  rw [exec, execJacobi, jacobiRule, if_pos hn, State.finish_error]

/-- JACOBI with an odd modulus writes the code of the symbol (R182, R183). -/
theorem exec_jacobi (hn : s.x rs3 % 2 = 1) :
    exec (.jacobi rs1 rs3 sa) s = .next { s with jac := jacField J(s.signedX rs1 sa | s.x rs3) }.complete := by
  rw [exec, execJacobi, jacobiRule, if_neg (by omega), jacobi_eq_jacobiSym _ hn, State.finish_ok, State.apply]

end

/-- ISSQR completes with the perfect-square predicate as its verdict (R187). -/
theorem exec_issqr (s : State) (rs1 : Reg) :
    exec (.issqr rs1) s = .next { s with v := isSquare (s.x rs1) }.complete :=
  rfl

/-- The floor modulus keeps the greatest common divisor with the modulus (R181). -/
theorem gcdOf_emod_toNat (a : Int) {n : Nat} (hn : n ≠ 0) : gcdOf (a % (n : Int)).toNat n = a.gcd n := by
  have hnonneg := Int.emod_nonneg a (Int.natCast_ne_zero.mpr hn)
  rw [gcdOf, ← Int.gcd_natCast_natCast, Int.toNat_of_nonneg hnonneg, Int.gcd_emod]

/-- The symbol vanishes exactly on a common factor (R182). -/
theorem jacobiSym_eq_zero_iff_one_lt_gcdOf (a : Int) {n : Nat} (hn : n ≠ 0) :
    J(a | n) = 0 ↔ 1 < gcdOf (a % (n : Int)).toNat n := by
  have hpos : 0 < a.gcd n := Int.gcd_pos_of_ne_zero_right a (Int.natCast_ne_zero.mpr hn)
  rw [gcdOf_emod_toNat a hn, jacobiSym.eq_zero_iff]
  omega

end Sys2Proof.Machine

namespace Sys2Proof

open Sys2Proof.Machine

/-- Settles O30, by the command's two cases. -/
theorem jacobiOutcome : Obligations.JacobiOutcome := by
  rintro s rs1 rs3 sa j rfl
  exact ⟨exec_jacobi_fault rs1 sa, exec_jacobi rs1 sa⟩

/-- Settles O31: the model's function is the symbol, which vanishes on a common factor and depends on `a mod n` only. -/
theorem jacobiVanishesOnCommonFactor : Obligations.JacobiVanishesOnCommonFactor := by
  intro a n hn
  rw [jacobi_eq_jacobiSym a hn, jacobi_eq_jacobiSym _ hn]
  exact ⟨jacobiSym_eq_zero_iff_one_lt_gcdOf a (by omega), jacobiSym.mod_left a n⟩

/-- Settles O32: the verdict is `isSquare`, which `isSquare_iff` says is the predicate. -/
theorem issqrOutcome : Obligations.IssqrOutcome :=
  fun s rs1 => ⟨_, isSquare_iff (s.x rs1), exec_issqr s rs1⟩

/-- Settles O33: the model's function is the library's. -/
theorem gcdFollowsItsRule : Obligations.GcdFollowsItsRule := by
  intro a b
  have hrec : gcdOf a b = gcdOf b (a % b) := by
    rw [gcdOf, gcdOf, Nat.gcd_comm, Nat.gcd_rec, Nat.gcd_comm]
  exact ⟨Nat.gcd_zero_right a, fun _ => hrec, Nat.gcd_dvd_left a b, Nat.gcd_dvd_right a b, fun _ => Nat.dvd_gcd⟩

end Sys2Proof
end

section
/-! CRTSTEP (44_crt.md): the command's three cases (R200), the law of one Garner step (R203), and decryption by combining the
residues modulo the primes of a key (R201, R202). -/

namespace Sys2Proof.Machine

/-! ### The arithmetic of a Garner step -/

section
variable {m r ri ti : Nat}

/-- The floor modulus is natural: no information is lost in `h` (R200). -/
theorem natCast_crtH (m mi ti : Nat) (hri : ri ≠ 0) : (crtH m mi ri ti : Int) = ((mi : Int) - m) * ti % ri :=
  Int.toNat_of_nonneg (Int.emod_nonneg _ (Int.natCast_ne_zero.mpr hri))

/-- `h <= r_i - 1` (R203). -/
theorem crtH_lt (m mi ti : Nat) (hri : ri ≠ 0) : crtH m mi ri ti < ri := by
  have hlt : (crtH m mi ri ti : Int) < ri := by
    rw [natCast_crtH m mi ti hri]
    exact Int.emod_lt_of_pos _ (by omega)
  exact_mod_cast hlt

/-- The new `m` is below the new `R` (R203, R204). -/
theorem add_mul_crtH_lt (mi ti : Nat) (hm : m < r) (hri : ri ≠ 0) : m + r * crtH m mi ri ti < r * ri :=
  calc m + r * crtH m mi ri ti
      < r + r * crtH m mi ri ti := Nat.add_lt_add_right hm _
    _ = r * (crtH m mi ri ti + 1) := by ring
    _ ≤ r * ri := Nat.mul_le_mul_left r (crtH_lt m mi ti hri)

/-- With `R * t_i` congruent to 1, the new `m` has the residue `m_i` modulo `r_i` (R203). -/
theorem add_mul_crtH_modEq (m mi : Nat) (hri : ri ≠ 0) (ht : r * ti ≡ 1 [MOD ri]) :
    m + r * crtH m mi ri ti ≡ mi [MOD ri] := by
  have hinv : (r * ti : Int) ≡ 1 [ZMOD ri] := by exact_mod_cast Int.natCast_modEq_iff.mpr ht
  rw [← Int.natCast_modEq_iff]
  push_cast
  rw [natCast_crtH m mi ti hri]
  calc (m + r * (((mi : Int) - m) * ti % ri) : Int)
      ≡ m + r * (((mi : Int) - m) * ti) [ZMOD ri] := ((Int.mod_modEq _ _).mul_left _).add_left _
    _ = m + r * ti * ((mi : Int) - m) := by ring
    _ ≡ m + 1 * ((mi : Int) - m) [ZMOD ri] := (hinv.mul_right _).add_left _
    _ = mi := by ring

end

/-! ### Reduced key exponents -/

/-- A reduced key exponent, if it is not 0, gives the power of the whole exponent (R203). -/
theorem pow_mod_pred_modEq {p d : Nat} (hp : p.Prime) (hd : 1 ≤ d % (p - 1)) (c : Nat) :
    c ^ (d % (p - 1)) ≡ c ^ d [MOD p] :=
  pow_modEq_of_exponents hp (by omega) (by rintro rfl; simp at hd) (Nat.mod_modEq _ _) c

/-! ### CRTSTEP -/

section
variable {s : State} {rd rs1 : Reg} (rs2 : Reg) {rs3 : Reg} (rs4 : Reg)

/-- CRTSTEP with `r_i = 0` faults (R200). -/
theorem exec_crtstep_modulus_fault (rd rs1 : Reg) (hri : s.x rs3 = 0) :
    exec (.crtstep rd rs1 rs2 rs3 rs4) s = .next (s.raiseFault .operandRange) := by
  rw [exec, execCrtstep, crtstepRule, if_pos hri, State.finish_error]

/-- CRTSTEP with a result of more than `W` bits faults (R200). -/
theorem exec_crtstep_overflow_fault (hri : s.x rs3 ≠ 0)
    (hbig : 2 ^ Config.W ≤ s.x rd + s.x rs1 * crtH (s.x rd) (s.x rs2) (s.x rs3) (s.x rs4) ∨
      2 ^ Config.W ≤ s.x rs1 * s.x rs3) :
    exec (.crtstep rd rs1 rs2 rs3 rs4) s = .next (s.raiseFault .resultOverflow) := by
  rw [exec, execCrtstep, crtstepRule, if_neg hri, if_pos hbig, State.finish_error]

/-- CRTSTEP whose results fit leaves the new `m` and the new `R`, every other register, and everything but `BUSY` and `DONE`
(R200; 10_state.md R36). -/
theorem exec_crtstep (hd : rd ≠ rs1) (hri : s.x rs3 ≠ 0)
    (hm : s.x rd + s.x rs1 * crtH (s.x rd) (s.x rs2) (s.x rs3) (s.x rs4) < 2 ^ Config.W)
    (hr : s.x rs1 * s.x rs3 < 2 ^ Config.W) :
    ∃ t : State, exec (.crtstep rd rs1 rs2 rs3 rs4) s = .next t ∧
      t.x rd = s.x rd + s.x rs1 * crtH (s.x rd) (s.x rs2) (s.x rs3) (s.x rs4) ∧ t.x rs1 = s.x rs1 * s.x rs3 ∧
      (∀ k : Reg, k ≠ rd → k ≠ rs1 → t.x k = s.x k) ∧ t = { s with big := t.big, busy := false, done := true } := by
  have hexec : exec (.crtstep rd rs1 rs2 rs3 rs4) s = .next ((s.setX rd (s.x rd + s.x rs1 *
      crtH (s.x rd) (s.x rs2) (s.x rs3) (s.x rs4))).setX rs1 (s.x rs1 * s.x rs3)).complete := by
    rw [exec, execCrtstep, crtstepRule, if_neg hri, if_neg (by omega), State.finish_ok, State.apply]
  exact ⟨_, hexec, (State.x_setX_ne _ _ hd).trans (s.x_setX_same rd hm), State.x_setX_same _ rs1 hr,
    fun _ hkd hk1 => (State.x_setX_ne _ _ hk1).trans (s.x_setX_ne _ hkd), rfl⟩

end

end Sys2Proof.Machine

namespace Sys2Proof

open Sys2Proof.Machine

/-- Settles O16, by the command's three cases: the rule's `h` is the statement's. -/
theorem crtstepOutcome : Obligations.CrtstepOutcome := by
  rintro s rd rs1 rs2 rs3 rs4 h hd rfl
  refine ⟨exec_crtstep_modulus_fault rs2 rs4 rd rs1, fun hri hbig => ?_, fun hri hm hr => ?_⟩
  · rw [← natCast_crtH _ _ _ hri] at hbig
    exact exec_crtstep_overflow_fault rs2 rs4 hri (by exact_mod_cast hbig)
  · rw [← natCast_crtH _ _ _ hri] at hm ⊢
    obtain ⟨t, hexec, hrd, hframe⟩ := exec_crtstep rs2 rs4 hd hri (by exact_mod_cast hm) hr
    exact ⟨t, hexec, by exact_mod_cast hrd, hframe⟩

/-- Settles O17: the result is below `R * r_i` and has both residues, and the Chinese remainder theorem leaves no other such
number. -/
theorem crtstepReconstructs : Obligations.CrtstepReconstructs := by
  intro s rd rs1 rs2 rs3 rs4 hd _ hm hri hcoprime ht hfits
  have hri0 : s.x rs3 ≠ 0 := Nat.one_le_iff_ne_zero.mp hri
  have hlt := add_mul_crtH_lt (s.x rs2) (s.x rs4) hm hri0
  have hleft : (s.x rd + s.x rs1 * crtH (s.x rd) (s.x rs2) (s.x rs3) (s.x rs4)) % s.x rs1 = s.x rd := by
    rw [Nat.add_mul_mod_self_left, Nat.mod_eq_of_lt hm]
  have hright := add_mul_crtH_modEq (s.x rd) (s.x rs2) hri0 ht
  obtain ⟨t, hexec, hrd, hrs1, -, hframe⟩ := exec_crtstep rs2 rs4 hd hri0 (hlt.trans hfits) hfits
  rw [← hrd] at hlt hleft hright
  refine ⟨t, hexec, by rw [hframe], hrs1, hlt, hleft, hright, fun y hy hyleft hyright => ?_⟩
  have hboth : y ≡ t.x rd [MOD s.x rs1 * s.x rs3] :=
    (Nat.modEq_and_modEq_iff_modEq_mul hcoprime).mp ⟨hyleft.trans hleft.symm, hyright.trans hright.symm⟩
  exact hboth.eq_of_lt_of_lt hy hlt

/-- Settles O19: `c^d` modulo `R * r` has both residues, modulo `r` by Fermat's little theorem, so it is the
number O17 speaks of. -/
theorem crtstepAddsOnePrime : Obligations.CrtstepAddsOnePrime := by
  intro s rd rs1 rs2 rs3 rs4 c d hd hprime hcoprime hR hexp hfits hm hmi ht
  obtain ⟨t, hexec, -, hrs1, -, -, -, hunique⟩ := crtstepReconstructs s rd rs1 rs2 rs3 rs4 hd hR
    (hm ▸ Nat.mod_lt _ hR) hprime.one_le hcoprime (ht.trans (Nat.mod_eq_of_lt hprime.one_lt).symm) hfits
  refine ⟨t, hexec, (hunique _ (Nat.mod_lt _ (Nat.mul_pos hR hprime.pos)) ?_ ?_).symm, hrs1⟩
  · rw [Nat.mod_mul_right_mod, hm]
  · rw [Nat.mod_mul_left_mod, hmi, Nat.mod_mod, pow_mod_pred_modEq hprime hexp]

/-- Settles O18, the case of O19 where the product combined so far is the prime `q` (R201). -/
theorem crtDecryptionEqualsDirect : Obligations.CrtDecryptionEqualsDirect := by
  rintro s rd rs1 rs2 rs3 rs4 c d p q hd hp hq hpq hdP hdQ hfits hm rfl hmi rfl ht
  rw [mul_comm (s.x rs3)] at hfits ⊢
  exact crtstepAddsOnePrime s rd rs1 rs2 rs3 rs4 c d hd hp ((Nat.coprime_primes hq hp).mpr hpq.symm) hq.one_le hdP hfits
    (hm.trans (pow_mod_pred_modEq hq hdQ c)) hmi ht

end Sys2Proof
end

section
/-! Faults, the interrupt line and the random port (60_exceptions.md): precise faults (R213, R214), a latched fault until it is
cleared (R217), the interrupt line (R220), draws (R230) and an MRTEST that waits for them (R231, R232), and what a command leaves to
the other agents. -/

namespace Sys2Proof.Machine

/-! ### Rounds without answers -/

/-- The rounds block when the answers run out and none of their draws shows the candidate composite (R231). -/
theorem mrRounds_blocked {w n : Nat} {src : List Nat} (hn : src.length < n)
    (h : ∀ a ∈ src, mrWitness w (drawFrom 2 (w - 2) a) = false) : mrRounds w n src = .blocked := by
  induction src generalizing n with
  | nil =>
    obtain ⟨n, rfl⟩ := Nat.exists_eq_add_of_lt hn
    rw [mrRounds]
  | cons a src ih =>
    cases n with
    | zero => exact absurd hn (Nat.not_lt_zero _)
    | succ n =>
      rw [List.forall_mem_cons] at h
      rw [mrRounds, h.1, if_neg Bool.false_ne_true]
      exact ih (Nat.lt_of_succ_lt_succ hn) h.2

/-- MRTEST from 10 on with blocked rounds stays in execution, its answers used up and their rounds passed (R231; log 7). -/
theorem exec_mrtest_blocked {s : State} {rs1 : Reg} {imm12 : BitVec 12} (h : 10 ≤ s.x rs1)
    (hr : mrRounds (s.x rs1) (imm12.toNat - s.mrPassed) s.source = .blocked) :
    exec (.mrtest rs1 imm12) s = .next { s with mrPassed := s.mrPassed + s.source.length, source := [] } := by
  rw [exec, execMrtest, mrtestStep, shortcut_none h, roundsOf]
  simp only [hr]

/-- Using up no answers changes nothing (R231). -/
theorem State.useUpAnswers_of_none {s : State} (h : s.source = []) :
    { s with mrPassed := s.mrPassed + s.source.length, source := [] } = s := by
  cases s
  cases h
  rfl

/-! ### Faults -/

/-- The faults of commands have the codes 2, 3 and 4, code 1 being that of an illegal word (R211). -/
theorem faultCode_of_command {f : EngineFault} (h : f ≠ .illegalCommand) :
    faultCode f = 2 ∨ faultCode f = 3 ∨ faultCode f = 4 := by
  cases f with
  | illegalCommand => exact absurd rfl h
  | operandRange => exact .inl rfl
  | messageOutOfRange => exact .inr (.inl rfl)
  | resultOverflow => exact .inr (.inr rfl)

/-- A command that sets `ERR` has done nothing but take a fault of its own (R213, R214). -/
theorem exec_sets_err {i : Instr} {s t : State} (h : exec i s = .next t) (hs : s.err = false) (ht : t.err = true) :
    ∃ f, f ≠ .illegalCommand ∧ t = s.raiseFault f := by
  rcases exec_cases i s with ⟨f, hf, he⟩ | ⟨e, -, he⟩ | ⟨rs1, imm, -, he⟩ <;> rw [he] at h <;>
    obtain rfl := Host.Outcome.next.inj h
  · exact ⟨f, hf, rfl⟩
  · rw [State.apply_frame] at ht
    cases hs.symm.trans ht
  · rcases mrtestStep_cases (s.x rs1) (roundsOf imm) s with ⟨v, k, hstep⟩ | hstep <;> rw [hstep] at ht <;>
      cases hs.symm.trans ht

/-- With a fault latched no command is in execution (10_state.md R37). -/
theorem State.Coherent.idle_of_err {s : State} (hs : s.Coherent) (he : s.err = true) : s.busy = false :=
  Bool.eq_false_iff.mpr fun hb => absurd ((hs.busyClear hb).2.symm.trans he) (by decide)

/-- With no command in execution a host write that leaves a latched fault keeps its code and word and starts no command (R217;
10_state.md R32, R33). -/
theorem State.hostWrite_keeps_fault {s : State} {addr size : Nat} {w : Word} (hb : s.busy = false) (he : s.err = true)
    (h : (s.hostWrite addr size w).err = true) :
    (s.hostWrite addr size w).ecode = s.ecode ∧ (s.hostWrite addr size w).ecmd = s.ecmd ∧
      (s.hostWrite addr size w).busy = false := by
  rcases s.hostWrite_cases addr size w with ⟨-, e⟩ | e | e | ⟨i, j, -, e⟩ | e <;> rw [e] at h ⊢
  · rw [State.writeCmd_dropped (.inr he)]
    exact ⟨rfl, rfl, hb⟩
  · rw [State.writeStatus_eq] at h ⊢
    have hkept : ¬ w.getLsbD 2 = true := by simpa [he] using h
    exact ⟨if_neg hkept, if_neg hkept, hb⟩
  · cases hw : w.getLsbD 31
    · rw [State.writeCtrl_enables hw]
      exact ⟨rfl, rfl, hb⟩
    · rw [State.writeCtrl_reset hw, State.softReset_frame] at h
      cases h
  · rw [State.writeLimb, if_neg (by simp [hb])]
    exact ⟨rfl, rfl, hb⟩
  · exact ⟨rfl, rfl, hb⟩

/-- While a fault is latched, a step after which `ERR` is still 1 keeps it and starts no command (R217). -/
theorem step_keeps_fault {s t : State} (hs : s.Coherent) (he : s.err = true) (h : step s = .next t) (ht : t.err = true) :
    t.ecode = s.ecode ∧ t.ecmd = s.ecmd ∧ t.busy = false := by
  have hb : s.busy = false := hs.idle_of_err he
  rcases step_cases h with ⟨e, hturn⟩ | ⟨addr, size, w, -, hsame⟩ | ⟨-, hsame⟩ | hsame
  · obtain ⟨-, rfl⟩ | ⟨hbusy, -⟩ := engineTurn_cases hturn
    · exact ⟨rfl, rfl, hb⟩
    · cases hb.symm.trans hbusy
  · rw [hsame] at ht ⊢
    exact State.hostWrite_keeps_fault hb he ht
  · rw [hsame] at ht
    cases ht
  · rw [hsame]
    exact ⟨rfl, rfl, hb⟩

/-! ### The random source -/

/-- No command but MRTEST changes the answers of the source or the rounds passed (R230). -/
theorem exec_keeps_answers {i : Instr} {s t : State} (h : exec i s = .next t) (hi : ∀ rs1 imm12, i ≠ .mrtest rs1 imm12) :
    t.source = s.source ∧ t.mrPassed = s.mrPassed := by
  rcases exec_cases i s with ⟨f, -, he⟩ | ⟨e, -, he⟩ | ⟨rs1, imm12, rfl, -⟩
  · obtain rfl := Host.Outcome.next.inj (he ▸ h)
    exact ⟨rfl, rfl⟩
  · obtain rfl := Host.Outcome.next.inj (he ▸ h)
    rw [State.apply_frame]
    exact ⟨rfl, rfl⟩
  · exact absurd rfl (hi rs1 imm12)

/-- A command consumes answers of the source from the front only (R232). -/
theorem exec_source {i : Instr} {s t : State} (h : exec i s = .next t) : ∃ k, t.source = s.source.drop k := by
  rcases exec_outcome h with ⟨f, rfl⟩ | ⟨e, k, -, rfl⟩ | rfl
  · exact ⟨0, rfl⟩
  · exact ⟨k, by rw [State.apply_frame]; rfl⟩
  · exact ⟨s.source.length, List.drop_length.symm⟩

end Sys2Proof.Machine

namespace Sys2Proof

open Sys2Proof.Machine

/-- Settles O22: the rounds block; with no answer at all there is nothing to use up. -/
theorem mrtestBlocksWithoutAnswers : Obligations.MrtestBlocksWithoutAnswers := by
  refine fun s rs1 imm12 h => ⟨fun hpassed hnone => ?_, fun hfew hrange hno => ?_⟩
  · have hblocked : mrRounds (s.x rs1) (imm12.toNat - s.mrPassed) s.source = .blocked :=
      mrRounds_blocked (by rw [hnone]; exact Nat.sub_pos_of_lt hpassed) (by simp [hnone])
    rw [exec_mrtest_blocked h hblocked, State.useUpAnswers_of_none hnone]
  · exact exec_mrtest_blocked h (mrRounds_blocked hfew
      (mrWitness_draw_false h fun a ha => ⟨(hrange a ha).1, (hrange a ha).2, hno a ha⟩))

/-- Settles O34: of a command's ways to end only a fault sets `ERR`. -/
theorem faultsArePrecise : Obligations.FaultsArePrecise := by
  intro i s t h hs ht
  obtain ⟨f, hf, rfl⟩ := exec_sets_err h hs ht
  exact ⟨faultCode_of_command hf, rfl⟩

/-- Settles O38: the frame of `exec`, and what its outcomes leave of the answers. -/
theorem commandsTouchNoOtherAgent : Obligations.CommandsTouchNoOtherAgent := by
  intro i s t h
  have hanswers := exec_keeps_answers h
  have hsource := exec_source h
  rw [exec_frame h]
  exact ⟨rfl, rfl, rfl, rfl, rfl, rfl, rfl, rfl, rfl, hanswers, hsource⟩

/-- Settles O44: a latched fault means an idle engine, and then only the host's writes and resets reach the latch. -/
theorem latchedFaultStaysUntilCleared : Obligations.LatchedFaultStaysUntilCleared :=
  fun s _ hs he h ht => step_keeps_fault ((controlInv_iff s).mp hs).1 he h ht

/-- Settles O46: a command in execution starts with `DONE` and `ERR` clear and sets one of them. -/
theorem interruptLineAfterCompletion : Obligations.InterruptLineAfterCompletion := by
  intro i s t hs hb h ht
  obtain ⟨hdone, herr⟩ := ((controlInv_iff s).mp hs).1.busyClear hb
  obtain ⟨-, hieDone, hieErr, -⟩ := exec_control h
  rcases exec_ends h hb ht with ⟨hd, he, -⟩ | ⟨he, -, hd, -⟩
  · rw [herr] at he
    exact .inl ⟨hd, he, by simp [State.irq, hd, he, hieDone]⟩
  · rw [hdone] at hd
    exact .inr ⟨hd, he, by simp [State.irq, hd, he, hieErr]⟩

/-- Settles O24: the range of a draw, and the step of a `supply` entry. -/
theorem drawLiesInItsRange : Obligations.DrawLiesInItsRange := by
  refine ⟨fun lo hi raw h => ?_, fun s raw ho => step_env ho⟩
  obtain ⟨hlo, hhi⟩ := drawFrom_mem raw h
  exact ⟨hlo, hhi, drawFrom_of_mem⟩

end Sys2Proof
end

section
/-! Resets and progress (70_reset_and_hazards.md): what a hardware reset clears (R250), and that with weak fairness and a source that
answers a command in execution ends (R270; 60_exceptions.md R231). -/

namespace Sys2Proof.Machine

/-- With the control state reset the interrupt line is low (60_exceptions.md R220). -/
theorem State.resetControl_irq (s : State) : s.resetControl.irq = false := rfl

/-! ### Completions that are enabled -/

/-- A completion is enabled when a command is in execution that the engine's turn would end (10_state.md R36). -/
theorem completionEnabled_iff (s : State) :
    completionEnabled s = true ↔ s.busy = true ∧ ∃ t, engineTurn s = .next t ∧ t.busy = false := by
  obtain ⟨t, ht⟩ := engineTurn_next s
  simp [completionEnabled, ht]

/-- Rounds that are decided stay so when the source has more answers (60_exceptions.md R232). -/
theorem mrRounds_append {w n : Nat} {src : List Nat} {v : Bool} {rest : List Nat} (l : List Nat)
    (h : mrRounds w n src = .decided v rest) : mrRounds w n (src ++ l) = .decided v (rest ++ l) := by
  induction n generalizing src with
  | zero =>
    rw [mrRounds, MrRun.decided.injEq] at h ⊢
    exact ⟨h.1, by rw [h.2]⟩
  | succ n ih =>
    cases src with
    | nil => rw [mrRounds] at h; cases h
    | cons a src =>
      rw [List.cons_append]
      rw [mrRounds] at h ⊢
      split at h
      · next hw =>
        cases h
        rw [if_pos hw]
      · next hw =>
        rw [if_neg hw]
        exact ih h

/-- An MRTEST that its answers end is ended by these and more answers too (R231, R232). -/
theorem mrtestStep_ends_append {w n : Nat} {s t : State} {l : List Nat} (hb : s.busy = true)
    (hpassed : t.mrPassed = s.mrPassed) (hsource : t.source = s.source ++ l) (h : (mrtestStep w n s).busy = false) :
    (mrtestStep w n t).busy = false := by
  unfold mrtestStep at h ⊢
  split at h
  · rfl
  · split at h
    · next hr =>
      rw [hpassed, hsource, mrRounds_append l hr]
      rfl
    · cases hb.symm.trans h

/-- An enabled completion depends on the registers, `CUR`, the rounds passed and the answers only, and more answers do not disable
it (10_state.md R38; 60_exceptions.md R231). -/
theorem completionEnabled_of_more_answers {s t : State} {l : List Nat} (h : completionEnabled s = true) (hb : t.busy = true)
    (hbig : t.big = s.big) (hcur : t.cur = s.cur) (hpassed : t.mrPassed = s.mrPassed) (hsource : t.source = s.source ++ l) :
    completionEnabled t = true := by
  obtain ⟨hs, u, hu, hends⟩ := (completionEnabled_iff s).mp h
  refine (completionEnabled_iff t).mpr ⟨hb, ?_⟩
  cases hd : decode s.cur with
  | error e => exact ⟨_, engineTurn_illegal hb (hcur ▸ hd), rfl⟩
  | ok i =>
    rw [engineTurn_exec hs hd] at hu
    rw [engineTurn_exec hb (hcur ▸ hd)]
    rcases exec_cases i t with ⟨f, -, hf⟩ | ⟨e, -, hc⟩ | ⟨rs1, imm, rfl, hm⟩
    · exact ⟨_, hf, rfl⟩
    · exact ⟨_, hc, rfl⟩
    · obtain rfl := Host.Outcome.next.inj hu
      have hx : t.x rs1 = s.x rs1 := by rw [State.x, State.x, State.bigReg, State.bigReg, hbig]
      rw [hx] at hm
      exact ⟨_, hm, mrtestStep_ends_append hs hpassed hsource hends⟩

/-- The turn of an enabled completion ends the command (10_state.md R36). -/
theorem afterStep_ends {s : State} (h : completionEnabled s = true) (hturn : engineHasTurn s = true) :
    (afterStep s).busy = false := by
  obtain ⟨e, he⟩ := step_engine hturn
  have henabled : completionEnabled { s with epc := e } = true :=
    completionEnabled_of_more_answers h ((completionEnabled_iff s).mp h).1 rfl rfl rfl (List.append_nil _).symm
  obtain ⟨-, t, ht, hends⟩ := (completionEnabled_iff _).mp henabled
  rw [afterStep, he, ht]
  exact hends

/-- An enabled completion stays enabled while its command is in execution: nothing but the engine's turn uses up answers. -/
theorem completionEnabled_afterStep {s : State} (h : completionEnabled s = true) (hb : (afterStep s).busy = true) :
    completionEnabled (afterStep s) = true := by
  cases hturn : engineHasTurn s with
  | true => cases hb.symm.trans (afterStep_ends h hturn)
  | false =>
    obtain ⟨hbig, hcur, hpassed, l, hsource⟩ :=
      step_other_busy ((completionEnabled_iff s).mp h).1 hturn (step_afterStep s) hb
    exact completionEnabled_of_more_answers h hb hbig hcur hpassed hsource

/-- A command in execution has its completion enabled or waits for a draw (R231). -/
theorem completionEnabled_of_not_drawPending {s : State} (hb : s.busy = true) (h : drawPending s = false) :
    completionEnabled s = true := by
  simpa [drawPending, hb] using h

/-- If the source answers, a command that never ends has its completion enabled at some step. -/
theorem exists_completionEnabled {s : State} (h : SourceAnswers s) (hb : ∀ n, (stateAt s n).busy = true) :
    ∃ n, completionEnabled (stateAt s n) = true := by
  cases hp : drawPending (stateAt s 0) with
  | false => exact ⟨0, completionEnabled_of_not_drawPending (hb 0) hp⟩
  | true =>
    obtain ⟨m, -, hm⟩ := h 0 hp
    exact ⟨m, completionEnabled_of_not_drawPending (hb m) hm⟩

end Sys2Proof.Machine

namespace Sys2Proof

open Sys2Proof.Machine

/-- Settles O50: the entry's step is the hardware reset, whose control state is a reset one. -/
theorem hardwareResetClearsControl : Obligations.HardwareResetClearsControl :=
  fun s ho => ⟨_, step_env ho, s.resetControl_statusWord, rfl, s.resetControl_ctrlWord, rfl, s.resetControl_irq, rfl⟩

/-- Settles O47: were the command to stay in execution for ever, its completion would be enabled at some step, stay enabled, and so
have its turn, which ends the command. -/
theorem commandsEndUnderFairness : Obligations.CommandsEndUnderFairness := by
  intro s _ hfair hanswers
  by_contra hnever
  have hb : ∀ n, (stateAt s n).busy = true := by simpa using hnever
  obtain ⟨n, hn⟩ := exists_completionEnabled hanswers hb
  have hstays : ∀ m, n ≤ m → completionEnabled (stateAt s m) = true := fun m hm =>
    Nat.le_induction hn (fun k _ hk => completionEnabled_afterStep hk (hb (k + 1))) m hm
  obtain ⟨m, hm, hturn⟩ := hfair n hstays
  exact absurd ((hb (m + 1)).symm.trans (afterStep_ends (hstays m hm) hturn)) (by decide)

end Sys2Proof
end

section
/-! Two runs under the launch premises (70_reset_and_hazards.md R252): what an unwritten register holds does not matter (R23). A step
taken in both keeps every agreement of limbs, and the limbs it writes agree; the operands of a command in execution are written. -/

namespace Sys2Proof.Machine

/-! ### States that differ in the registers -/

/-- `s` and `s'` are the same but for the big registers and what the host was answered and has added up. -/
def SameButRegisters (s s' : State) : Prop :=
  s' = { s with big := s'.big, answer := s'.answer, gathered := s'.gathered }

/-- Limb `j` of `x[i]` is the same in both states. -/
def SameLimb (i : Reg) (j : Fin Config.LIMBS) (s s' : State) : Prop :=
  limbOf (s'.bigReg i) j = limbOf (s.bigReg i) j

section
variable {i : Reg} {j : Fin Config.LIMBS} {s s' : State}

/-- The second state is the first with registers, an answer and a sum of its own. -/
theorem SameButRegisters.exists_eq (h : SameButRegisters s s') :
    ∃ b a g, s' = { s with big := b, answer := a, gathered := g } :=
  ⟨_, _, _, h⟩

/-- A register all of whose limbs are the same has the same value (20_memory.md R62). -/
theorem State.x_eq_of_sameLimb (h : ∀ j, SameLimb i j s s') : s'.x i = s.x i :=
  congrArg BitVec.toNat (eq_of_limbOf_eq h)

/-- Equal registers have the same limbs. -/
theorem sameLimb_of_big_eq (h : s'.big = s.big) : SameLimb i j s s' := by
  rw [SameLimb, State.bigReg, State.bigReg, h]

/-- Only the registers decide whether a limb is the same. -/
theorem SameLimb.of_big {t t' : State} (h : SameLimb i j s s') (ht : t.big = s.big) (ht' : t'.big = s'.big) :
    SameLimb i j t t' := by
  rw [SameLimb, State.bigReg, State.bigReg, ht, ht']
  exact h

/-- A register written with one value in both states is the same, any other as much as before (00_scope.md R11). -/
theorem SameLimb.setBig {k : Reg} (r : BitVec Config.W) (h : i = k ∨ SameLimb i j s s') :
    SameLimb i j (s.setBig k r) (s'.setBig k r) := by
  by_cases hk : i = k
  · subst hk
    rw [SameLimb, State.bigReg_setBig_same, State.bigReg_setBig_same]
  · rw [SameLimb, State.bigReg_setBig_ne s r hk, State.bigReg_setBig_ne s' r hk]
    exact h.resolve_left hk

/-- The registers a rule's writes name are the same after them, any other as much as before (10_state.md R36). -/
theorem SameLimb.apply {e : Effect} (h : i ∈ effectRegs e ∨ SameLimb i j s s') : SameLimb i j (s.apply e) (s'.apply e) := by
  cases e with
  | writeX rd n => exact .setBig _ (h.imp_left List.mem_singleton.mp)
  | writeTwo rd m rs1 r =>
    rw [effectRegs, List.mem_pair, or_comm (a := i = rd), or_assoc] at h
    exact .setBig _ (h.imp_right (.setBig _))
  | setV b => exact h.resolve_left List.not_mem_nil
  | setJac c => exact h.resolve_left List.not_mem_nil

/-- Forgetting a register in both states takes the free value of the same counter (log 4). -/
theorem SameButRegisters.forget (h : SameButRegisters s s') (k : Reg) : SameButRegisters (s.forget k) (s'.forget k) := by
  rw [h]; rfl

/-- Forgetting registers in both states leaves the rest the same (10_state.md R45). -/
theorem SameButRegisters.forgetAll (h : SameButRegisters s s') (is : List Reg) :
    SameButRegisters (s.forgetAll is) (s'.forgetAll is) := by
  induction is generalizing s s' with
  | nil => exact h
  | cons k is ih => exact ih (h.forget k)

/-- Forgetting registers in both states keeps every limb that is the same (R45; log 4). -/
theorem SameLimb.forgetAll (hl : SameLimb i j s s') (h : SameButRegisters s s') (is : List Reg) :
    SameLimb i j (s.forgetAll is) (s'.forgetAll is) := by
  induction is generalizing s s' with
  | nil => exact hl
  | cons k is ih =>
    have hfresh : s'.fresh = s.fresh := by rw [h]
    have hforget : SameLimb i j (s.forget k) (s'.forget k) := by
      rw [State.forget, State.forget, hfresh]
      exact SameLimb.setBig _ (.inr hl)
    exact ih hforget (h.forget k)

/-- A reset of the control state does the same in both states (R44). -/
theorem SameButRegisters.resetControl (h : SameButRegisters s s') : SameButRegisters s.resetControl s'.resetControl := by
  rw [h]; rfl

/-! ### A step taken in both states -/

/-- `t` and `t'` are what became of `s` and `s'`: still the same but for the registers, with every limb the same that was; and if a
command has completed, its destinations `ds` are the same. -/
structure StillSame (ds : List Reg) (s s' t t' : State) : Prop where
  same : SameButRegisters t t'
  limbs : ∀ i j, SameLimb i j s s' → SameLimb i j t t'
  written : s.done = false → t.done = true → ∀ i ∈ ds, ∀ j, SameLimb i j t t'

/-- Where no command completes there is no destination to compare. -/
theorem StillSame.of_not_completed {ds : List Reg} {t t' : State} (same : SameButRegisters t t')
    (limbs : ∀ i j, SameLimb i j s s' → SameLimb i j t t') (hdone : t.done = true → s.done = true) :
    StillSame ds s s' t t' where
  same := same
  limbs := limbs
  written h ht := absurd (h.symm.trans (hdone ht)) (by decide)

/-- What happens outside the registers and `DONE` does not matter. -/
theorem StillSame.of_big {ds : List Reg} {t t' u u' : State} (h : StillSame ds s s' t t') (same : SameButRegisters u u')
    (hbig : u.big = t.big) (hbig' : u'.big = t'.big) (hdone : u.done = t.done) : StillSame ds s s' u u' where
  same := same
  limbs i j hl := (h.limbs i j hl).of_big hbig hbig'
  written hs hu i hi j := (h.written hs (hdone ▸ hu) i hi j).of_big hbig hbig'

/-- Completion with the same result of the rule, which writes the destinations if it does not fault (10_state.md R36). -/
theorem SameButRegisters.finish (h : SameButRegisters s s') {ds : List Reg} {r : Except EngineFault Effect}
    (hr : ∀ e, r = .ok e → ds ⊆ effectRegs e) : StillSame ds s s' (s.finish r) (s'.finish r) := by
  obtain ⟨b, a, g, rfl⟩ := h.exists_eq
  cases r with
  | error f => exact .of_not_completed rfl (fun _ _ => id) id
  | ok e =>
    refine ⟨?_, fun _ _ hl => SameLimb.apply (e := e) (.inr hl),
      fun _ _ k hk _ => SameLimb.apply (e := e) (.inl (hr e rfl hk))⟩
    cases e <;> rfl

/-- MRTEST's step on the same candidate: it sees the same answers, and writes no register (42_primality.md R155). -/
theorem SameButRegisters.mrtestStep (h : SameButRegisters s s') (w n : Nat) :
    StillSame [] s s' (mrtestStep w n s) (mrtestStep w n s') := by
  have hpassed : s'.mrPassed = s.mrPassed := by rw [h]
  have hsource : s'.source = s.source := by rw [h]
  have hanswers : ∀ p l, SameButRegisters { s with mrPassed := p, source := l } { s' with mrPassed := p, source := l } := by
    rw [h]
    exact fun _ _ => rfl
  unfold Machine.mrtestStep
  rw [hpassed, hsource]
  split
  · exact h.finish fun _ _ => List.nil_subset _
  · split
    · next rest _ =>
      obtain ⟨hsame, hlimbs, hwritten⟩ := (hanswers s.mrPassed rest).finish (r := .ok (.setV _)) fun _ _ => List.nil_subset _
      exact ⟨hsame, hlimbs, hwritten⟩
    · exact .of_not_completed (hanswers _ _) (fun _ _ => id) id

end

/-! The rules with destinations write them unless they fault (10_state.md R22). -/

/-- MODEXP's (40_modexp.md R120). -/
theorem modexpRule_writes {rd : Reg} {b n m : Nat} {e : Effect} (h : modexpRule rd b n m = .ok e) :
    [rd] ⊆ effectRegs e := by
  unfold modexpRule at h
  split_ifs at h
  cases h
  exact List.Subset.refl _

/-- RSAEP's (R125). -/
theorem rsaepRule_writes {rd : Reg} {m n k : Nat} {e : Effect} (h : rsaepRule rd m n k = .ok e) : [rd] ⊆ effectRegs e := by
  unfold rsaepRule at h
  split_ifs at h
  cases h
  exact List.Subset.refl _

/-- MONTRED's (41_montgomery.md R140). -/
theorem montredRule_writes {rd : Reg} {t n : Nat} {e : Effect} (h : montredRule rd t n = .ok e) : [rd] ⊆ effectRegs e := by
  unfold montredRule at h
  split_ifs at h
  cases h
  exact List.Subset.refl _

/-- CRTSTEP's (44_crt.md R200). -/
theorem crtstepRule_writes {rd rs1 : Reg} {m r mi ri ti : Nat} {e : Effect} (h : crtstepRule rd rs1 m r mi ri ti = .ok e) :
    [rd, rs1] ⊆ effectRegs e := by
  unfold crtstepRule at h
  split_ifs at h
  cases h
  exact List.Subset.refl _

section
variable {s s' t t' : State}

/-- A command on the same operands does the same in both states (10_state.md R22). -/
theorem SameButRegisters.exec (h : SameButRegisters s s') {c : Instr} (hx : ∀ r ∈ c.sources, s'.x r = s.x r)
    (ht : exec c s = .next t) (ht' : exec c s' = .next t') : StillSame c.dests s s' t t' := by
  cases c <;> simp only [Instr.sources, List.forall_mem_cons] at hx <;> cases ht
  case modexp rd rs1 rs2 rs3 =>
    obtain ⟨h1, h2, h3, -⟩ := hx
    rw [Machine.exec, execModexp, h1, h2, h3] at ht'
    cases ht'
    exact h.finish fun _ => modexpRule_writes
  case rsaep rd rs1 rs2 rs3 =>
    obtain ⟨h1, h2, h3, -⟩ := hx
    rw [Machine.exec, execRsaep, h1, h2, h3] at ht'
    cases ht'
    exact h.finish fun _ => rsaepRule_writes
  case montred rd rs1 rs3 =>
    obtain ⟨h1, h3, -⟩ := hx
    rw [Machine.exec, execMontred, h1, h3] at ht'
    cases ht'
    exact h.finish fun _ => montredRule_writes
  case crtstep rd rs1 rs2 rs3 rs4 =>
    obtain ⟨hd, h1, h2, h3, h4, -⟩ := hx
    rw [Machine.exec, execCrtstep, hd, h1, h2, h3, h4] at ht'
    cases ht'
    exact h.finish fun _ => crtstepRule_writes
  case mrround rs1 rs2 =>
    obtain ⟨h1, h2, -⟩ := hx
    rw [Machine.exec, execMrround, h1, h2] at ht'
    cases ht'
    exact h.finish fun _ _ => List.nil_subset _
  case mrtest rs1 imm12 =>
    rw [Machine.exec, execMrtest, hx.1] at ht'
    cases ht'
    exact h.mrtestStep _ _
  case lucas rs1 =>
    have hfirst : s'.lucasFirst = s.lucasFirst := by rw [h]
    rw [Machine.exec, execLucas, hfirst, hx.1] at ht'
    cases ht'
    exact h.finish fun _ _ => List.nil_subset _
  case jacobi rs1 rs3 sa =>
    obtain ⟨h1, h3, -⟩ := hx
    rw [Machine.exec, execJacobi, State.signedX, h1, h3] at ht'
    cases ht'
    exact h.finish fun _ _ => List.nil_subset _
  case issqr rs1 =>
    rw [Machine.exec, execIssqr, hx.1] at ht'
    cases ht'
    exact h.finish fun _ _ => List.nil_subset _

/-- The operands of the command in execution, if there is one, are the same in both states. -/
def SameOperands (s s' : State) : Prop :=
  s.busy = true → ∀ c, decode s.cur = .ok c → ∀ r ∈ c.sources, s'.x r = s.x r

/-- The engine's turn does the same in both states (10_state.md R36). -/
theorem SameButRegisters.engineTurn (h : SameButRegisters s s') (hx : SameOperands s s') (ht : engineTurn s = .next t)
    (ht' : engineTurn s' = .next t') : StillSame s.curDests s s' t t' := by
  have hbusy : s'.busy = s.busy := by rw [h]
  have hcur : s'.cur = s.cur := by rw [h]
  cases hb : s.busy with
  | false =>
    rw [engineTurn_idle hb] at ht
    rw [engineTurn_idle (hbusy.trans hb)] at ht'
    cases ht
    cases ht'
    exact .of_not_completed h (fun _ _ => id) id
  | true =>
    cases hd : decode s.cur with
    | ok c =>
      rw [engineTurn_exec hb hd] at ht
      rw [engineTurn_exec (hbusy.trans hb) (hcur ▸ hd)] at ht'
      rw [State.curDests_ok hd]
      exact h.exec (hx hb c hd) ht ht'
    | error e =>
      rw [engineTurn_illegal hb hd] at ht
      rw [engineTurn_illegal (hbusy.trans hb) (hcur ▸ hd)] at ht'
      cases ht
      cases ht'
      obtain ⟨b, a, g, rfl⟩ := h.exists_eq
      exact .of_not_completed rfl (fun _ _ => id) id

/-- No host write sets `DONE` (10_state.md R33). -/
theorem State.done_of_hostWrite {addr size : Nat} {w : Word} (h : (s.hostWrite addr size w).done = true) :
    s.done = true := by
  rcases s.hostWrite_cases addr size w with ⟨-, e⟩ | e | e | ⟨i, j, -, e⟩ | e <;> rw [e] at h
  · rw [State.writeCmd] at h
    split at h
    · exact h
    · cases h
  · rw [State.writeStatus_eq] at h
    exact (Bool.and_eq_true_iff.mp h).1
  · cases hw : w.getLsbD 31
    · rwa [State.writeCtrl_enables hw] at h
    · rw [State.writeCtrl_reset hw, State.softReset_frame] at h
      cases h
  · rw [State.writeLimb] at h
    split at h <;> exact h
  · exact h

/-- Replacing a limb by the same word in both states keeps every agreement (20_memory.md R64). -/
theorem SameLimb.withLimb {i k : Reg} {j l : Fin Config.LIMBS} (w : Word) (h : SameLimb i j s s') :
    SameLimb i j (s.setBig k (withLimb (s.bigReg k) l w)) (s'.setBig k (withLimb (s'.bigReg k) l w)) := by
  by_cases hij : (i, j) = (k, l)
  · cases hij
    rw [SameLimb, State.bigReg_setBig_same, State.bigReg_setBig_same, limbOf_withLimb_same, limbOf_withLimb_same]
  · rw [SameLimb, limbOf_setBig_withLimb_ne s k i l j w hij, limbOf_setBig_withLimb_ne s' k i l j w hij]
    exact h

/-- A soft reset does the same in both states (10_state.md R45). -/
theorem SameButRegisters.softReset (h : SameButRegisters s s') (ds : List Reg) :
    StillSame ds s s' s.softReset s'.softReset := by
  have hdests : (if s'.busy then s'.curDests else []) = if s.busy then s.curDests else [] := by rw [h]; rfl
  rw [State.softReset, State.softReset, hdests]
  exact .of_not_completed (h.forgetAll _).resetControl (fun i j hl => hl.forgetAll h _) nofun

/-- A host write does the same in both states (20_memory.md R67). -/
theorem SameButRegisters.hostWrite (h : SameButRegisters s s') (addr size : Nat) (w : Word) (ds : List Reg) :
    StillSame ds s s' (s.hostWrite addr size w) (s'.hostWrite addr size w) := by
  have hsoft := h.softReset ds
  obtain ⟨b, a, g, rfl⟩ := h.exists_eq
  suffices hw : SameButRegisters (s.hostWrite addr size w) (State.hostWrite _ addr size w) ∧ ∀ i j,
      SameLimb i j s _ → SameLimb i j (s.hostWrite addr size w) (State.hostWrite _ addr size w) from
    .of_not_completed hw.1 hw.2 State.done_of_hostWrite
  unfold State.hostWrite
  dsimp only
  split
  · unfold State.writeCmd
    dsimp only
    split <;> exact ⟨rfl, fun _ _ => id⟩
  · rw [State.writeStatus_eq, State.writeStatus_eq]
    exact ⟨rfl, fun _ _ => id⟩
  · exact ⟨rfl, fun _ _ => id⟩
  · cases hw : w.getLsbD 31
    · rw [State.writeCtrl_enables hw, State.writeCtrl_enables hw]
      exact ⟨rfl, fun _ _ => id⟩
    · rw [State.writeCtrl_reset hw, State.writeCtrl_reset hw]
      exact ⟨hsoft.same, hsoft.limbs⟩
  · exact ⟨rfl, fun _ _ => id⟩
  · unfold State.writeLimb
    dsimp only
    split
    · exact ⟨rfl, fun _ _ => id⟩
    · exact ⟨rfl, fun _ _ hl => hl.withLimb w⟩
  · exact ⟨rfl, fun _ _ => id⟩

/-- A hardware reset makes all registers the same, the free values being those of the same counter (70_reset_and_hazards.md R250;
log 4). -/
theorem SameButRegisters.hardReset (h : SameButRegisters s s') (ds : List Reg) :
    StillSame ds s s' s.hardReset s'.hardReset := by
  have hbig : s'.hardReset.big = s.hardReset.big := by rw [h]; rfl
  have hsame : SameButRegisters s.hardReset s'.hardReset := by rw [h]; rfl
  exact .of_not_completed hsame (fun _ _ _ => sameLimb_of_big_eq hbig) nofun

/-- Answers to the host may differ (R60). -/
theorem SameButRegisters.answered (h : SameButRegisters s s') (a a' : BusAnswer) :
    SameButRegisters (s.answered a) (s'.answered a') := by
  rw [h]; rfl

/-- The host's index moves on in both states. -/
theorem SameButRegisters.advance (h : SameButRegisters s s') : SameButRegisters s.advance s'.advance := by
  rw [h]; rfl

/-- The host's place moves on in both states (30_encoding.md R97). -/
theorem SameButRegisters.nextLimb (h : SameButRegisters s s') : SameButRegisters s.nextLimb s'.nextLimb := by
  rw [h]; rfl

/-- A step does the same in both states (R72). -/
theorem SameButRegisters.step (h : SameButRegisters s s') (hx : SameOperands s s') (ht : step s = .next t)
    (ht' : step s' = .next t') : StillSame s.curDests s s' t t' := by
  have hentry : s'.env[s'.epc]? = s.env[s.epc]? := by rw [h]
  cases ho : s.env[s.epc]? with
  | none => exact h.engineTurn hx (step_over ho ▸ ht) (step_over (hentry.trans ho) ▸ ht')
  | some op =>
    rw [step_env ho] at ht
    rw [step_env (hentry.trans ho)] at ht'
    cases op <;> simp only [envStep] at ht ht'
    case engine =>
      obtain ⟨hsame, hlimbs, hwritten⟩ := SameButRegisters.engineTurn (s := s.advance) h.advance hx ht ht'
      exact ⟨hsame, hlimbs, hwritten⟩
    case wait =>
      have hbusy : s'.busy = s.busy := by rw [h]
      rw [hbusy] at ht'
      split at ht
      · next hb =>
        rw [if_pos hb] at ht'
        exact h.engineTurn hx ht ht'
      · next hb =>
        rw [if_neg hb] at ht'
        cases ht
        cases ht'
        obtain ⟨b, a, g, rfl⟩ := h.exists_eq
        exact .of_not_completed rfl (fun _ _ => id) id
    case write addr size w =>
      obtain rfl := Host.Outcome.next.inj ht
      obtain rfl := Host.Outcome.next.inj ht'
      have hw := h.hostWrite addr size w s.curDests
      rw [State.hostStore, State.hostStore]
      refine hw.of_big (hw.same.answered _ _).advance ?_ ?_ ?_ <;> simp
    case ldr i v =>
      have hlimb : s'.limb = s.limb := by rw [h]
      have hbase : s'.rfBase = s.rfBase := by rw [h]
      obtain rfl := Host.Outcome.next.inj ht
      obtain rfl := Host.Outcome.next.inj ht'
      rw [State.ldr, State.ldr, State.hostStore, State.hostStore, hlimb, hbase]
      have hw := h.hostWrite (limbAddr s.rfBase i s.limb) 4 (limbOf v s.limb) s.curDests
      refine hw.of_big (hw.same.answered _ _).nextLimb ?_ ?_ ?_ <;> simp
    case hardReset =>
      obtain rfl := Host.Outcome.next.inj ht
      obtain rfl := Host.Outcome.next.inj ht'
      have hreset := h.hardReset s.curDests
      exact hreset.of_big hreset.same.advance rfl rfl rfl
    all_goals
      obtain rfl := Host.Outcome.next.inj ht
      obtain rfl := Host.Outcome.next.inj ht'
      obtain ⟨b, a, g, rfl⟩ := h.exists_eq
      exact .of_not_completed rfl (fun _ _ => id) id

/-! ### What has been written -/

/-- A limb is written after a step if it was before, or a command with this destination has completed, or an idle engine's host
writes it (R23). -/
theorem writtenAfter_cases {w : Written} {i : Reg} {j : Fin Config.LIMBS} (h : writtenAfter w s i j = true) :
    w i j = true ∨ (s.busy = true ∧ (afterStep s).done = true ∧ i ∈ s.curDests) ∨
      (s.busy = false ∧ ∃ addr size v, HostWrites s addr size v ∧ targetOf s.rfBase addr size = some (.limb i j)) := by
  unfold writtenAfter at h
  dsimp only at h
  split at h
  · next hb =>
    split at h
    · exact .inl h
    · split at h
      · cases h
      · split at h
        · next hdone =>
          exact (Bool.or_eq_true_iff.mp h).imp_right fun hi => .inl ⟨hb, hdone, of_decide_eq_true hi⟩
        · split at h
          · exact .inl h
          · exact .inl (Bool.and_eq_true_iff.mp h).1
  · next hb =>
    have hidle : s.busy = false := Bool.eq_false_iff.mpr hb
    split at h
    · next addr size v ho =>
      exact (Bool.or_eq_true_iff.mp h).imp_right fun ht => .inr ⟨hidle, addr, size, v, .inl ho, of_decide_eq_true ht⟩
    · next k v ho =>
      refine (Bool.or_eq_true_iff.mp h).imp_right fun hk => .inr ⟨hidle, _, _, _, .inr ⟨k, v, ho, rfl, rfl, rfl⟩, ?_⟩
      obtain ⟨rfl, rfl⟩ := of_decide_eq_true hk
      exact targetOf_limbAddr s.rfBase k s.limb
    · cases h
    · exact .inl h

/-- While a command stays in execution nothing more is written, and nothing less. -/
theorem writtenAfter_busy (w : Written) (hb : s.busy = true) (hb' : (afterStep s).busy = true) : writtenAfter w s = w := by
  funext i j
  simp [writtenAfter, hb, hb']

/-- An idle engine's host write leaves what was written so. -/
theorem writtenAfter_write {w : Written} {addr size : Nat} {v : Word} {i : Reg} {j : Fin Config.LIMBS} (hb : s.busy = false)
    (ho : s.env[s.epc]? = some (.write addr size v)) (h : w i j = true) : writtenAfter w s i j = true := by
  simp [writtenAfter, hb, ho, h]

/-- A host write to a limb of an idle engine leaves its word there (20_memory.md R64). -/
theorem HostWrites.limbOf_afterStep {addr size : Nat} {v : Word} {i : Reg} {j : Fin Config.LIMBS} (h : HostWrites s addr size v)
    (hb : s.busy = false) (ht : targetOf s.rfBase addr size = some (.limb i j)) : limbOf ((afterStep s).bigReg i) j = v := by
  have hbig : (afterStep s).big = (s.hostWrite addr size v).big := by
    rcases h with ho | ⟨k, r, ho, rfl, rfl, rfl⟩
    · rw [afterStep, step_write ho]
    · rw [afterStep, step_ldr ho]
      simp [State.ldr, State.hostStore]
  obtain ⟨rfl, rfl⟩ := eq_limbAddr_of_targetOf ht
  have hreg := s.bigReg_setBig_same i (withLimb (s.bigReg i) j v)
  rw [← s.hostWrite_limb i j v hb, State.bigReg, ← hbig] at hreg
  rw [State.bigReg, hreg, limbOf_withLimb_same]

/-- `DONE` is set only by a command that ends (10_state.md R36). -/
theorem step_sets_done (h : step s = .next t) (hs : s.done = false) (ht : t.done = true) : t.busy = false := by
  have hne : ¬ s.done = true := Bool.eq_false_iff.mp hs
  rcases step_cases h with ⟨e, he⟩ | ⟨addr, size, w, -, he⟩ | ⟨-, he⟩ | he
  · rcases engineTurn_cases he with ⟨-, rfl⟩ | ⟨-, ⟨c, hc⟩ | rfl⟩
    · exact absurd ht hne
    · rcases exec_outcome hc with ⟨f, rfl⟩ | ⟨e, k, -, rfl⟩ | rfl
      · rfl
      · rfl
      · exact absurd ht hne
    · rfl
  · rw [he] at ht
    exact absurd (State.done_of_hostWrite ht) hne
  · rw [he] at ht
    cases ht
  · rw [he] at ht
    exact absurd ht hne

/-- A host write that brings a command into execution is an accepted write to `CMD` (10_state.md R32, R37). -/
theorem State.hostWrite_starts {addr size : Nat} {w : Word} (hb : s.busy = false)
    (h : (s.hostWrite addr size w).busy = true) :
    targetOf s.rfBase addr size = some .cmd ∧ s.err = false ∧ s.hostWrite addr size w = s.accept w := by
  have hne : ¬ s.busy = true := Bool.eq_false_iff.mp hb
  rcases s.hostWrite_cases addr size w with ⟨ht, e⟩ | e | e | ⟨i, j, -, e⟩ | e <;> rw [e] at h ⊢
  · cases herr : s.err
    · exact ⟨ht, rfl, State.writeCmd_accepted hb herr w⟩
    · rw [State.writeCmd_dropped (.inr herr)] at h
      exact absurd h hne
  · rw [State.writeStatus_eq] at h
    exact absurd h hne
  · cases hw : w.getLsbD 31
    · rw [State.writeCtrl_enables hw] at h
      exact absurd h hne
    · rw [State.writeCtrl_reset hw, State.softReset_busy] at h
      cases h
  · rw [State.writeLimb, if_neg hne] at h
    exact absurd h hne
  · exact absurd h hne

/-- A command comes into execution only as the word of an accepted write to `CMD`, `DONE` being cleared (R32, R37). -/
theorem step_starts (hb : s.busy = false) (h : step s = .next t) (ht : t.busy = true) :
    s.env[s.epc]? = some (.write 0x0000 4 t.cur) ∧ s.err = false ∧ t.done = false := by
  have hne : ¬ s.busy = true := Bool.eq_false_iff.mp hb
  rcases step_cases h with ⟨e, he⟩ | ⟨addr, size, w, hw, he⟩ | ⟨-, he⟩ | he
  · obtain ⟨-, rfl⟩ | ⟨hbusy, -⟩ := engineTurn_cases he
    · exact absurd ht hne
    · exact absurd hbusy hne
  · rw [he] at ht ⊢
    obtain ⟨hcmd, herr, haccept⟩ := State.hostWrite_starts hb ht
    rw [haccept]
    exact ⟨hw.entry_of_cmd hcmd, herr, rfl⟩
  · rw [he] at ht
    cases ht
  · rw [he] at ht
    exact absurd ht hne

/-! ### Two runs -/

/-- A command in execution has all its operands written, and has not set `DONE` (R252). -/
def OperandsWritten (w : Written) (s : State) : Prop :=
  s.busy = true → s.done = false ∧ ∀ c, decode s.cur = .ok c → ∀ r ∈ c.sources, ∀ j, w r j = true

/-- Commands issued on written registers only have written operands as long as they are in execution (R252). -/
theorem OperandsWritten.step {w : Written} (h : OperandsWritten w s) (hissue : issuesOnlyOnWritten w s = true) :
    OperandsWritten (writtenAfter w s) (afterStep s) := by
  intro hb'
  have hstep := step_afterStep s
  cases hb : s.busy with
  | true =>
    obtain ⟨hdone, hwritten⟩ := h hb
    rw [writtenAfter_busy w hb hb', (step_stays_busy hb hstep hb').2.1]
    refine ⟨Bool.eq_false_iff.mpr fun hd => ?_, hwritten⟩
    cases (step_sets_done hstep hdone hd).symm.trans hb'
  | false =>
    obtain ⟨ho, herr, hdone⟩ := step_starts hb hstep hb'
    refine ⟨hdone, fun c hc r hr j => writtenAfter_write hb ho ?_⟩
    simp only [issuesOnlyOnWritten, ho, hb, herr, hc, Bool.or_self, Bool.false_eq_true, if_false, List.all_eq_true] at hissue
    exact hissue r hr j (List.mem_finRange j)

/-- Two states, the limbs `w` being written, agree on those limbs and outside the registers, and a command in execution has written
operands. -/
structure RunsAgree (w : Written) (s s' : State) : Prop where
  same : SameButRegisters s s'
  limbs : ∀ i j, w i j = true → SameLimb i j s s'
  operands : OperandsWritten w s

/-- A command in execution then has the same operands in both states. -/
theorem RunsAgree.sameOperands {w : Written} (h : RunsAgree w s s') : SameOperands s s' :=
  fun hb c hc r hr => State.x_eq_of_sameLimb fun j => h.limbs r j ((h.operands hb).2 c hc r hr j)

/-- A step keeps the agreement (R252): what was written stays the same, and what the step writes is the same. -/
theorem RunsAgree.step {w : Written} (h : RunsAgree w s s') (hissue : issuesOnlyOnWritten w s = true) :
    RunsAgree (writtenAfter w s) (afterStep s) (afterStep s') := by
  obtain ⟨hsame, hlimbs, hwritten⟩ := h.same.step h.sameOperands (step_afterStep s) (step_afterStep s')
  refine ⟨hsame, fun i j hw => ?_, h.operands.step hissue⟩
  rcases writtenAfter_cases hw with hold | ⟨hb, hdone, hi⟩ | ⟨hb, addr, size, v, hv, ht⟩
  · exact hlimbs i j (h.limbs i j hold)
  · exact hwritten (h.operands hb).1 hdone i hi j
  · have hv' : HostWrites s' addr size v := by rw [h.same]; exact hv
    have hb' : s'.busy = false := by rw [h.same]; exact hb
    have ht' : targetOf s'.rfBase addr size = some (.limb i j) := by rw [h.same]; exact ht
    rw [SameLimb, hv.limbOf_afterStep hb ht, hv'.limbOf_afterStep hb' ht']

/-- Under the launch premises two runs that start in agreement stay so (R252). -/
theorem RunsAgree.stateAt {w : Written} (h : RunsAgree w s s') (hlaunch : LaunchPremises w s) (n : Nat) :
    RunsAgree (writtenAt w s n) (stateAt s n) (stateAt s' n) := by
  induction n with
  | zero => exact h
  | succ n ih => exact ih.step (hlaunch.operandsWritten n)

end

end Sys2Proof.Machine

namespace Sys2Proof

open Sys2Proof.Machine

/-- Settles O48, by induction on the steps: agreement on the written limbs and outside the registers holds at the start, where no
command is in execution, and every step keeps it. -/
theorem unwrittenRegistersDoNotMatter : Obligations.UnwrittenRegistersDoNotMatter := by
  intro w s s' hlaunch hsame hlimbs n
  have hstart : RunsAgree w s s' := ⟨by rw [hsame]; rfl, hlimbs, fun hb => absurd (hlaunch.idle.symm.trans hb) (by decide)⟩
  have hn := hstart.stateAt hlaunch n
  exact ⟨hn.limbs, hn.same⟩

end Sys2Proof
end
